-- ==== Sys2Proof/Word.lean ====
section
/-!
DEFINITION. The words of the block: 8-bit registers, the 6-bit window address and the 8-byte
identifier (spec/00_scope.md R7: "register width 8 bits; register window 64 bytes (6-bit address);
identifier 64 bits (8 bytes)").
-/

namespace Sys2Proof

/-- An 8-bit register value. -/
abbrev Byte := BitVec 8

/-- An address of the register window (spec/20_memory.md R50). -/
abbrev Addr := BitVec 6

/-- A host operation in the 16-bit notation of spec/30_encoding.md R81. -/
abbrev HostWord := BitVec 16

/-- An 8-byte buffer, byte 0 (the family code) first (spec/10_state.md R33). -/
abbrev Ident := Vector Byte 8

end Sys2Proof
end

