-- ==== Sys2Proof/Syntax.lean ====
section
/-!
DEFINITION. The commands of the block (spec/30_encoding.md R75, one constructor per row of
spec/opcode_table.json; format C has no operand field, R70, R71), the registers of its window
(R74) and the host accesses to it (spec/20_memory.md R51, R55).
-/

namespace Sys2Proof

/-- A command (spec/30_encoding.md R75). -/
inductive Instr where
  /-- 0x01 RESET (R106) -/
  | reset
  /-- 0x02 WBIT (R124) -/
  | wbit
  /-- 0x03 RBIT (R125) -/
  | rbit
  /-- 0x04 WBYTE (R126) -/
  | wbyte
  /-- 0x05 RBYTE (R127) -/
  | rbyte
  /-- 0x06 CRCB (R143) -/
  | crcb
  /-- 0x10 RDROM (R182) -/
  | rdrom
  /-- 0x11 SRCHF (R151) -/
  | srchf
  /-- 0x12 SRCHN (R159) -/
  | srchn
  /-- 0x13 ENUM (R161) -/
  | enum
  /-- 0x14 ENUMC (R162) -/
  | enumc
  /-- 0x20 POLL (R184) -/
  | poll
deriving DecidableEq, Repr

/-- What stands at an address of the register window (spec/30_encoding.md R74). -/
inductive Reg where
  | cmd | status | events | ie | ctrl | data | crc | ld | ccount | csel
  | rombuf (i : Fin 8)
  | ident (i : Fin 8)
  | cent (i : Fin 8)
  | reserved
deriving DecidableEq, Repr

/-- One host access: `MemRead(a, width)` or `MemWrite(a, width, v)`. The block's interface has
width 1 only (spec/20_memory.md R55); the other widths are terms that `HostAccess.wf` rejects. -/
inductive HostAccess where
  | read (a : Addr) (width : Nat)
  | write (a : Addr) (width : Nat) (v : Byte)
deriving DecidableEq, Repr

end Sys2Proof
end

