-- ==== Sys2Proof/Config.lean ====
section
/-!
DEFINITION. What one block fixes: the implementation parameters of spec/00_scope.md R7 and R8, which
are an argument of the model (notes/assumptions/9.md), and the free values the spec leaves open
(spec/93_implementation_defined.md U1, U2, U9). Times are in microseconds.
-/

namespace Sys2Proof.Config

/-- "The model takes the following parameters as arguments" (R7): the parameters of one block. Every
state carries those of its block, and no step changes them. -/
structure Params where
  /-- `T_RSTL`: reset pulse, line driven low -/
  tRSTL : Nat
  /-- `T_PDS`: release to presence sample -/
  tPDS : Nat
  /-- `T_RSTR`: after the presence sample, line released -/
  tRSTR : Nat
  /-- `T_W1L`: write-1 low time -/
  tW1L : Nat
  /-- `T_W1R`: write-1 release time -/
  tW1R : Nat
  /-- `T_W0L`: write-0 low time -/
  tW0L : Nat
  /-- `T_W0R`: write-0 release time -/
  tW0R : Nat
  /-- `T_RL`: read slot low time -/
  tRL : Nat
  /-- `T_RS`: read slot release to sample -/
  tRS : Nat
  /-- `T_RR`: read slot after the sample -/
  tRR : Nat
  /-- `T_POLL`: autopoll interval -/
  tPoll : Nat
  /-- `CACHE_DEPTH`: identifier cache entries, "any value 1..255" (R8) -/
  cacheDepth : Nat
  /-- `PASS_LIMIT`: search passes per enumeration command, "any value 1..255" (R8) -/
  passLimit : Nat
deriving DecidableEq, Repr

/-- The values R7 decides for the block. -/
def standard : Params :=
  { tRSTL := 480, tPDS := 70, tRSTR := 410
    tW1L := 6, tW1R := 64, tW0L := 60, tW0R := 10
    tRL := 6, tRS := 9, tRR := 55
    tPoll := 50000
    cacheDepth := 8, passLimit := 64 }

/-- FREE VALUE (notes/assumptions/7.md): one less than `CLK_PER_US`, which R7 leaves OPEN. -/
opaque clkPerUsLess1 : Nat

/-- `CLK_PER_US`: block clock cycles per microsecond tick, "an integer ≥ 1" (R238). -/
def clkPerUs : Nat := clkPerUsLess1 + 1

/-- FREE VALUE (notes/assumptions/1.md): the bus oracle's answer to the n-th `Sample()` that no
scripted answer stands for; true is a high line (spec/40_line_reset.md R102). -/
opaque lineSample : Nat → Bool

/-- FREE VALUE (notes/assumptions/2.md): what the n-th read of a register that is being worked on
returns while BUSY = 1 (spec/20_memory.md R54). -/
opaque busyRead : Nat → Byte

end Sys2Proof.Config
end

