-- ==== Sys2Proof/WellFormed.lean ====
section
/-!
DEFINITION. Which terms are inside the block's interface. A command has no field that could be
ill-formed (spec/30_encoding.md R70); a host access is one byte wide (spec/20_memory.md R55); which
parameters a block can have (spec/00_scope.md R8).
-/

namespace Sys2Proof

/-- Every command is well-formed: "The opcode carries no register field and no immediate" (R70). -/
def Instr.wf : Instr → Bool
  | .reset | .wbit | .rbit | .wbyte | .rbyte | .crcb => true
  | .rdrom | .srchf | .srchn | .enum | .enumc | .poll => true

/-- "Every host access is exactly one byte wide" (R55). -/
def HostAccess.wf : HostAccess → Bool
  | .read _ width => width == 1
  | .write _ width _ => width == 1

/-- "The model may instantiate `CACHE_DEPTH` with any value 1..255 and `PASS_LIMIT` with any value
1..255" (spec/00_scope.md R8). -/
def Config.Params.wf (p : Config.Params) : Bool :=
  decide (1 ≤ p.cacheDepth) && decide (p.cacheDepth ≤ 255) &&
    decide (1 ≤ p.passLimit) && decide (p.passLimit ≤ 255)

end Sys2Proof
end

