-- ==== Sys2Proof/Decode.lean ====
section
/-!
DEFINITION. Decoding and encoding: commands (spec/30_encoding.md R70, R75, R79), the register map
(R73, R74) and the 16-bit host operations (R81). Every decoder is total and rejects by name.
-/

namespace Sys2Proof

/-- Why bytes are no command. -/
inductive DecodeError where
  /-- No byte to decode. -/
  | noByte
  /-- One of the 243 illegal opcodes (spec/30_encoding.md R79). -/
  | illegalOpcode (v : Byte)
deriving DecidableEq, Repr

/-- The opcode map of R75, row by row. -/
def opcodeMap : List (Byte × Instr) :=
  [(0x01#8, .reset), (0x02#8, .wbit), (0x03#8, .rbit), (0x04#8, .wbyte), (0x05#8, .rbyte),
   (0x06#8, .crcb), (0x10#8, .rdrom), (0x11#8, .srchf), (0x12#8, .srchn), (0x13#8, .enum),
   (0x14#8, .enumc), (0x20#8, .poll)]

/-- The command an opcode names; "Every other value is illegal" (R75, R79). -/
def decodeOpcode (v : Byte) : Except DecodeError Instr :=
  match opcodeMap.find? (fun row => row.1 == v) with
  | some row => .ok row.2
  | none => .error (.illegalOpcode v)

/-- Decode the first command of a byte sequence; a command is exactly one byte (R70). -/
def decode : List Byte → Except DecodeError (Instr × List Byte)
  | [] => .error .noByte
  | v :: rest =>
    match decodeOpcode v with
    | .ok i => .ok (i, rest)
    | .error e => .error e

/-- The opcode of a command (R75). -/
def opcode : Instr → Byte
  | .reset => 0x01#8
  | .wbit => 0x02#8
  | .rbit => 0x03#8
  | .wbyte => 0x04#8
  | .rbyte => 0x05#8
  | .crcb => 0x06#8
  | .rdrom => 0x10#8
  | .srchf => 0x11#8
  | .srchn => 0x12#8
  | .enum => 0x13#8
  | .enumc => 0x14#8
  | .poll => 0x20#8

/-- The words of a command: its one opcode byte (R70). -/
def encode (i : Instr) : List Byte := [opcode i]

/-- The instruction the decoder reads from an opcode-table word: the byte in bits 7..0; every bit
above `nbits` is zero. -/
def decodeTableWord (nbits w : Nat) : Option Instr :=
  match decode [BitVec.ofNat 8 (w % 2 ^ nbits)] with
  | .ok (i, _) => some i
  | .error _ => none

/-! ### The register map (R73, R74) -/

/-- The register at a window address, decoded from the full 6-bit address (R73, R74). -/
def addrReg (a : Addr) : Reg :=
  let n := a.toNat
  if n = 0x00 then .cmd
  else if n = 0x01 then .status
  else if n = 0x02 then .events
  else if n = 0x03 then .ie
  else if n = 0x04 then .ctrl
  else if n = 0x05 then .data
  else if n = 0x06 then .crc
  else if n = 0x07 then .ld
  else if n = 0x08 then .ccount
  else if n = 0x09 then .csel
  else if n < 0x10 then .reserved
  else if n < 0x18 then .rombuf (Fin.ofNat 8 (n - 0x10))
  else if n < 0x20 then .ident (Fin.ofNat 8 (n - 0x18))
  else if n < 0x28 then .cent (Fin.ofNat 8 (n - 0x20))
  else .reserved

/-- `addr(REG)` of R81. A reserved address has no name; the first one stands for it. -/
def regAddr : Reg → Addr
  | .cmd => 0x00#6
  | .status => 0x01#6
  | .events => 0x02#6
  | .ie => 0x03#6
  | .ctrl => 0x04#6
  | .data => 0x05#6
  | .crc => 0x06#6
  | .ld => 0x07#6
  | .ccount => 0x08#6
  | .csel => 0x09#6
  | .rombuf i => BitVec.ofNat 6 (0x10 + i.val)
  | .ident i => BitVec.ofNat 6 (0x18 + i.val)
  | .cent i => BitVec.ofNat 6 (0x20 + i.val)
  | .reserved => 0x0A#6

/-! ### Host operations in 16 bits (R81) -/

/-- `wr` has bits 15:14 = 10, `rd` has bits 15:14 = 00 and bits 7:0 = 0; no other word is a host
operation (R81; for `rd` with other low bits see notes/assumptions/8.md). -/
def decodeHostWord (w : HostWord) : Option HostAccess :=
  if w.extractLsb' 14 2 = 0b10#2 then some (.write (w.extractLsb' 8 6) 1 (w.extractLsb' 0 8))
  else if w.extractLsb' 14 2 = 0b00#2 ∧ w.extractLsb' 0 8 = 0x00#8 then
    some (.read (w.extractLsb' 8 6) 1)
  else none

/-- The 16-bit encoding of a one-byte host access: bit 15 set for `wr`, the address in bits 13:8, the
data in bits 7:0 (R81). -/
def encodeHostWord : HostAccess → HostWord
  | .write a _ v => 0x8000#16 ||| a.setWidth 16 <<< 8 ||| v.setWidth 16
  | .read a _ => a.setWidth 16 <<< 8

/-- `wr REG, imm8` (R81). -/
def wr (r : Reg) (v : Byte) : HostAccess := .write (regAddr r) 1 v

/-- `rd REG` (R81). -/
def rd (r : Reg) : HostAccess := .read (regAddr r) 1

/-- `cmd MNEMONIC` expands to `wr CMD, op(MNEMONIC)` (R81). -/
def cmdAccess (i : Instr) : HostAccess := wr .cmd (opcode i)

/-- `ack` expands to `wr EVENTS, 0xFF` (R81). -/
def ackAccess : HostAccess := wr .events 0xFF#8

end Sys2Proof
end

