-- ==== Sys2Proof/Machine/State.lean ====
section
/-!
DEFINITION. The machine's state as plain data (spec/10_state.md R20 to R44), the reasons a step can
stop, and the state after reset (R44). Block state comes first; `Env` is what stands outside the
block (R20): the inputs to come, the bus oracle, the line trace and the host's read results.
-/

namespace Sys2Proof.Machine

/-- `h.DRV`: the Line Driver's output; there is no "drive high" (R35). -/
inductive Drive where
  | released
  | low
deriving DecidableEq, Repr

/-- Who started the running command (R36). -/
inductive Origin where
  | host
  | auto
deriving DecidableEq, Repr

/-- The three Line Driver primitives (R100, R101, R102) with their nominal durations in µs. -/
inductive Prim where
  | low (t : Nat)
  | rel (t : Nat)
  | smp
deriving DecidableEq, Repr

/-- A labelled phase of the line trace (R240): `LOW(t)`, `REL(t)`, `SMP→b`. -/
inductive Phase where
  | low (t : Nat)
  | rel (t : Nat)
  | smp (b : Bool)
deriving DecidableEq, Repr

/-- What a search pass returns (R152). -/
inductive PassResult where
  | ok
  | noPres
  | conflict
deriving DecidableEq, Repr

/-- The points of the commands' pseudocode at which something other than a line primitive comes
next, with the pseudocode's loop counters (R36). -/
inductive Point where
  /-- the first line of the command's pseudocode -/
  | start
  /-- `ResetPresence` has sampled and waited out the recovery window (R104) -/
  | presence
  /-- `ResetPresence` has returned to the command that called it -/
  | presenceKnown
  /-- RBIT's read slot is over (R125) -/
  | bitRead
  /-- RBYTE's eight read slots are over (R127) -/
  | byteRead
  /-- the read slots of byte i of `ReadRom` are over (R181) -/
  | romByte (i : Nat)
  /-- `ReadRom` has all eight bytes in its buffer (R181) -/
  | romDone
  /-- the pass has sent 0xF0 (R152) -/
  | searchSent
  /-- the two read slots of position n are over (R153) -/
  | pair (n : Nat)
  /-- the write slot of position n is over (R155) -/
  | written (n : Nat)
  /-- `SearchPass` has returned r to the command that called it (R152) -/
  | passDone (r : PassResult)
  /-- the head of `RunEnum`'s loop (R163) -/
  | enumHead
  /-- the end of the command, or an `exit` (R80) -/
  | finish
deriving DecidableEq, Repr

/-- The position reached in a command's pseudocode: the line primitives still to perform before the
next point, the bits sampled on the way to it, and the point (R36; notes/assumptions/13.md). -/
structure Pos where
  todo : List Prim
  got : List Bool
  next : Point
deriving DecidableEq, Repr

/-- `h.SEQ`: `Idle` or `Run(op, origin, position)` (R36). -/
inductive Seq where
  | idle
  | run (op : Instr) (origin : Origin) (pos : Pos)
deriving DecidableEq, Repr

/-- `STATUS`, bit 0 (`busy`) to bit 7 (`sok`) in this order (R24). -/
structure Status where
  busy : Bool
  pd : Bool
  session : Bool
  idv : Bool
  lastdev : Bool
  crcok : Bool
  arm : Bool
  sok : Bool
deriving DecidableEq, Repr

/-- What happens next outside the sequencer, or that the sequencer moves
(notes/assumptions/3.md). -/
inductive Input where
  /-- the sequencer takes one step, if one is enabled -/
  | seq
  /-- one host access to the window (spec/20_memory.md R51) -/
  | access (a : HostAccess)
  /-- one host operation in the 16-bit notation of spec/30_encoding.md R81 -/
  | host (w : HostWord)
  /-- the host writes v to CMD and makes no further access until the command has ended: R81's
  `do MNEMONIC`; while BUSY = 1 it is the rejected write alone, without the wait (DESIGN CHOICE,
  notes/assumptions/5.md) -/
  | command (v : Byte)
  /-- RST is asserted (spec/70_reset_and_hazards.md R230) -/
  | rst
  /-- that many microseconds go by (notes/assumptions/7.md) -/
  | elapse (us : Nat)
deriving DecidableEq, Repr

/-- What stands outside the block. -/
structure Env where
  /-- what happens next, in order; when nothing is listed the sequencer moves -/
  inputs : List Input
  /-- the bus oracle's scripted answers, by sample number -/
  line : List Bool
  /-- how many samples have been taken -/
  nSamples : Nat
  /-- how many busy-time reads have been drawn (spec/20_memory.md R54) -/
  nDraws : Nat
  /-- the line trace, oldest phase first (R240) -/
  trace : List Phase
  /-- address and value of every host read, oldest first -/
  reads : List (Addr × Byte)
deriving DecidableEq, Repr

/-- No step of this machine faults: "No behaviour of the block is treated as `fault` or `stuck`"
(spec/93_implementation_defined.md section 2). The type has no constructor. -/
inductive Fault where
deriving DecidableEq, Repr

/-- Why a step is refused. -/
inductive Refusal where
  /-- Raised by `exec` for an instruction without a meaning; no arm does so. Safe. -/
  | notModelled (mnemonic : String)
  /-- Raised by a host access that is not one byte wide: "The model refuses it" (R55). Safe. -/
  | accessWidth
  /-- Raised by a 16-bit word that encodes no host operation (R81, notes/assumptions/8.md). Safe. -/
  | notHostOperation
deriving DecidableEq, Repr

/-- The block's parameters, its state (R21 to R42) and its environment. -/
structure State where
  /-- the parameters this block was built with (spec/00_scope.md R7, R8); no step changes them
  (notes/assumptions/9.md) -/
  params : Config.Params
  /-- CMD (R23) -/
  cmd : Byte
  /-- STATUS (R24) -/
  status : Status
  /-- EVENTS (R25) -/
  events : Byte
  /-- IE (R26) -/
  ie : Byte
  /-- CTRL (R27): bit 0 AUTOPOLL, bit 1 RMCLR, bits 7:2 read 0 -/
  ctrl : Byte
  /-- DATA (R28) -/
  data : Byte
  /-- CRC (R29) -/
  crc : Byte
  /-- LD (R30) -/
  ld : Byte
  /-- CCOUNT (R31) -/
  ccount : Byte
  /-- CSEL (R32) -/
  csel : Byte
  /-- ROMBUF (R33) -/
  rombuf : Ident
  /-- ID (R34) -/
  idBuf : Ident
  /-- h.DRV (R35) -/
  drv : Drive
  /-- h.SEQ (R36) -/
  seq : Seq
  /-- h.LASTZERO (R37) -/
  lastzero : Nat
  /-- h.PBUF (R38) -/
  pbuf : Ident
  /-- h.CACHE (R39), CACHE_DEPTH entries -/
  cache : List Ident
  /-- h.PASSES (R40) -/
  passes : Nat
  /-- h.APT in µs (R41) -/
  apt : Nat
  /-- the outside world -/
  env : Env
deriving DecidableEq, Repr

/-- The all-zero buffer. -/
def zeroIdent : Ident := Vector.replicate 8 0x00#8

/-- An environment that has done nothing and announces nothing (notes/assumptions/15.md). -/
def Env.quiet : Env :=
  { inputs := [], line := [], nSamples := 0, nDraws := 0, trace := [], reads := [] }

/-- A block with parameters p right after block reset, in the environment e: every value is the one
of R44's table. -/
def State.initial (p : Config.Params) (e : Env) : State :=
  { params := p
    cmd := 0x00#8
    status :=
      { busy := false, pd := false, session := false, idv := false
        lastdev := false, crcok := false, arm := false, sok := false }
    events := 0x00#8
    ie := 0x00#8
    ctrl := 0x00#8
    data := 0x00#8
    crc := 0x00#8
    ld := 0x00#8
    ccount := 0x00#8
    csel := 0x00#8
    rombuf := zeroIdent
    idBuf := zeroIdent
    drv := .released
    seq := .idle
    lastzero := 0
    pbuf := zeroIdent
    cache := List.replicate p.cacheDepth zeroIdent
    passes := 0
    apt := 0
    env := e }

/-- The machine right after block reset (R44), with the parameters R7 decides. Another instance of R8
starts from `State.initial` with its own (notes/assumptions/9.md). -/
def State.reset : State := State.initial Config.standard Env.quiet

end Sys2Proof.Machine
end

