-- ==== Sys2Proof/Machine/Flags.lean ====
section
/-!
DEFINITION. The status, event and control bits: STATUS as the byte the host reads (spec/10_state.md
R24), the event codes (spec/60_exceptions.md R200), the interrupt output (R205) and CTRL's fields
(R27). Their bit-field helpers stand here too.
-/

namespace Sys2Proof.Machine

/-- A flag as the bit i of a byte. -/
def bitAt (i : Nat) (b : Bool) : Byte := if b then 1#8 <<< i else 0#8

/-- v with bit i set to b (`v[i] <- b`, spec/00_scope.md R9). -/
def setBit (v : Byte) (i : Nat) (b : Bool) : Byte := (v &&& ~~~(1#8 <<< i)) ||| bitAt i b

/-- STATUS as the host reads it: BUSY in bit 0, ..., SOK in bit 7 (R24). -/
def Status.byte (st : Status) : Byte :=
  bitAt 0 st.busy ||| bitAt 1 st.pd ||| bitAt 2 st.session ||| bitAt 3 st.idv |||
    bitAt 4 st.lastdev ||| bitAt 5 st.crcok ||| bitAt 6 st.arm ||| bitAt 7 st.sok

/-- The events of R200. -/
inductive Event where
  | evPresent | evRemoved | evIdchg | evDone | errNopres | errCrc | errSrch | errCmd
deriving DecidableEq, Repr

/-- An event's code, "the number of its EVENTS bit" (R200). -/
def Event.code : Event → Nat
  | .evPresent => 0
  | .evRemoved => 1
  | .evIdchg => 2
  | .evDone => 3
  | .errNopres => 4
  | .errCrc => 5
  | .errSrch => 6
  | .errCmd => 7

/-- An event as a mask of EVENTS. -/
def Event.mask (e : Event) : Byte := 1#8 <<< e.code

/-- The interrupt output: `IRQ = ((x[EVENTS] & x[IE]) ≠ 0)` (R205). -/
def State.irq (s : State) : Bool := (s.events &&& s.ie) != 0#8

/-- `x[CTRL].AUTOPOLL` (R27). -/
def State.autopoll (s : State) : Bool := s.ctrl.getLsbD 0

/-- `x[CTRL].RMCLR` (R27). -/
def State.rmclr (s : State) : Bool := s.ctrl.getLsbD 1

end Sys2Proof.Machine
end

