-- ==== Sys2Proof/Machine/Ops.lean ====
section
/-!
DEFINITION. The operations every family shares: identifier bits (spec/10_state.md R43), the Line
Driver primitives (spec/40_line_reset.md R100 to R102), raising an event (spec/60_exceptions.md
R201), and accepting, rejecting and ending a command (spec/30_encoding.md R76 to R80).
-/

namespace Sys2Proof.Machine

/-! ### Identifier bits -/

/-- `BIT(buf, n)` for n = 1..64: bit `(n-1) mod 8` of byte `(n-1) div 8` (R43). -/
def romBit (buf : Ident) (n : Nat) : Bool :=
  (buf[(n - 1) / 8]?.getD 0x00#8).getLsbD ((n - 1) % 8)

/-- `BIT(buf, n) <- d` for n = 1..64 (R43). -/
def romSetBit (buf : Ident) (n : Nat) (d : Bool) : Ident :=
  buf.setIfInBounds ((n - 1) / 8) (setBit (buf[(n - 1) / 8]?.getD 0x00#8) ((n - 1) % 8) d)

/-! ### The environment's side of a step -/

/-- The bus oracle's answer to the sample after k more: the scripted one, or a free value
(R102; notes/assumptions/1.md). -/
def Env.sampleAt (e : Env) (k : Nat) : Bool :=
  (e.line[e.nSamples + k]?).getD (Config.lineSample (e.nSamples + k))

/-- Append a phase to the line trace (R240). -/
def State.log (p : Phase) (s : State) : State :=
  { s with env := { s.env with trace := s.env.trace ++ [p] } }

/-! ### Line Driver -/

/-- `DriveLow(t)`: `h.DRV <- 1` (R100), recorded as `LOW(t)` (R240). -/
def State.driveLow (t : Nat) (s : State) : State :=
  State.log (.low t) { s with drv := .low }

/-- `Release(t)`: `h.DRV <- 0` (R101), recorded as `REL(t)` (R240). -/
def State.release (t : Nat) (s : State) : State :=
  State.log (.rel t) { s with drv := .released }

/-- `Sample()`: "a draw from the bus oracle" (R102), recorded as `SMP→b` (R240). The state after
it and the bit, true for a high line. -/
def State.sample (s : State) : State × Bool :=
  (State.log (.smp (s.env.sampleAt 0))
    { s with env := { s.env with nSamples := s.env.nSamples + 1 } }, s.env.sampleAt 0)

/-! ### Events: the block's whole exception mechanism (R201, R206) -/

/-- `raise EV(e)`: `x[EVENTS][code(e)] <- 1`, and nothing else (R201). -/
def State.raise (e : Event) (s : State) : State := { s with events := s.events ||| e.mask }

/-- `raise EV(e)` if c. -/
def State.raiseIf (c : Bool) (e : Event) (s : State) : State := if c then s.raise e else s

/-! ### Accepting, rejecting and ending a command -/

/-- `accept(op, origin)` (R77). -/
def State.accept (op : Instr) (o : Origin) (s : State) : State :=
  { s with
    seq := .run op o { todo := [], got := [], next := .start }
    status := { s.status with busy := true }
    cmd := if o = .host then opcode op else s.cmd }

/-- `reject(v)`: "performs `raise EV(ERR_CMD)` and nothing else" (R78). -/
def State.reject (s : State) : State := s.raise .errCmd

/-- The last two checks of R76 and R182: RDROM needs ARM = 1. -/
def mayAccept (i : Instr) (s : State) : Bool := i != .rdrom || s.status.arm

/-- The end of a command (R80); "At the end of every poll, host or Auto, `h.APT <- 0`" (R190). -/
def State.finish (op : Instr) (o : Origin) (s : State) : State :=
  State.raiseIf (o == .host) .evDone
    { s with
      seq := .idle
      status := { s.status with busy := false }
      apt := if op = .poll then 0 else s.apt }

/-- The dispatcher's decision on a value written to CMD (R76), for a sequencer that then goes on
step by step. -/
def State.dispatch (v : Byte) (s : State) : State :=
  if s.status.busy then s.reject
  else match decodeOpcode v with
    | .error _ => s.reject
    | .ok i => if mayAccept i s then s.accept i .host else s.reject

/-- A host command run to its end with no host access in between, `do MNEMONIC` (R81;
notes/assumptions/5.md): the dispatcher's checks on a legal opcode (R76), acceptance (R77), the
pseudocode `body`, the end (R80). While BUSY = 1 it is the rejected write alone: the model does not
then wait for BUSY = 0 (DESIGN CHOICE, notes/assumptions/5.md). -/
def hostCommand (i : Instr) (body : State → State) (s : State) : State :=
  if s.status.busy then s.reject
  else if mayAccept i s then State.finish i .host (body (s.accept i .host))
  else s.reject

/-- Block reset (spec/70_reset_and_hazards.md R230, R231): "every piece of state takes the value of
rule R44"; the block's parameters and what stands outside it are untouched
(notes/assumptions/10.md). -/
def State.blockReset (s : State) : State := State.initial s.params s.env

/-- Time goes by (notes/assumptions/7.md): the autopoll timer counts, and stops at `T_POLL`
(spec/30_encoding.md R84 (d)). -/
def State.elapse (us : Nat) (s : State) : State :=
  { s with apt := min (s.apt + us) s.params.tPoll }

end Sys2Proof.Machine
end

