-- ==== Sys2Proof/Machine/Operands.lean ====
section
/-!
DEFINITION. The implicit operands and results of the commands (spec/30_encoding.md R71) and the two
identifier buffers a Read-ROM may fill (spec/44_presence.md R181).
-/

namespace Sys2Proof.Machine

/-- WBIT reads `x[DATA][0]`, "and `x[DATA][7:1]` is ignored" (R71). -/
def State.wbitOperand (s : State) : Bool := s.data.getLsbD 0

/-- WBYTE and CRCB read `x[DATA][7:0]` (R71). -/
def State.byteOperand (s : State) : Byte := s.data

/-- RBIT writes `x[DATA] <- zext_8(bit)` (R71). -/
def State.putBit (b : Bool) (s : State) : State := { s with data := bitAt 0 b }

/-- RBYTE writes `x[DATA] <- byte` (R71). -/
def State.putByte (v : Byte) (s : State) : State := { s with data := v }

/-- The buffer `ReadRom` fills: ROMBUF for RDROM (R182), h.PBUF for POLL (R187). -/
inductive RomTarget where
  | rombuf
  | pbuf
deriving DecidableEq, Repr

/-- The contents of a Read-ROM buffer. -/
def State.romGet (b : RomTarget) (s : State) : Ident :=
  match b with
  | .rombuf => s.rombuf
  | .pbuf => s.pbuf

/-- `buf[i] <- v` (R181). -/
def State.romPut (b : RomTarget) (i : Nat) (v : Byte) (s : State) : State :=
  match b with
  | .rombuf => { s with rombuf := s.rombuf.setIfInBounds i v }
  | .pbuf => { s with pbuf := s.pbuf.setIfInBounds i v }

/-- `CENT[i]`: byte i of the cache entry CSEL selects, 0x00 when it selects none (R34). -/
def State.cent (s : State) (i : Fin 8) : Byte :=
  match s.cache[s.csel.toNat]? with
  | some entry => entry[i]
  | none => 0x00#8

end Sys2Proof.Machine
end

