-- ==== Sys2Proof/Machine/BitByte.lean ====
section
/-!
DEFINITION. The bit slots, the byte serializer and deserializer (spec/41_bit_byte.md R120 to R123)
and the commands WBIT, RBIT, WBYTE, RBYTE (R124 to R127).
-/

namespace Sys2Proof.Machine

/-- `WriteBit(b)`: one write slot (R120). -/
def State.writeBit (b : Bool) (s : State) : State :=
  if b then (s.driveLow s.params.tW1L).release s.params.tW1R
  else (s.driveLow s.params.tW0L).release s.params.tW0R

/-- `ReadBit()`: one read slot (R121). -/
def State.readBit (s : State) : State × Bool :=
  let r := ((s.driveLow s.params.tRL).release s.params.tRS).sample
  (r.1.release s.params.tRR, r.2)

/-- `WriteByte(v)`: `for i in 0..7: WriteBit(v[i])` (R122). -/
def State.writeByte (v : Byte) (s : State) : State :=
  (List.range 8).foldl (fun s i => s.writeBit (v.getLsbD i)) s

/-- k read slots, the bits read set into `r` from bit i upward. -/
def readBitsInto : (k i : Nat) → Byte → State → State × Byte
  | 0, _, r, s => (s, r)
  | k + 1, i, r, s => readBitsInto k (i + 1) (setBit r i s.readBit.2) s.readBit.1

/-- `ReadByte()`: `r <- 0x00 ; for i in 0..7: r[i] <- ReadBit()` (R123). -/
def State.readByte (s : State) : State × Byte := readBitsInto 8 0 0x00#8 s

/-- `x[STATUS].ARM <- 0`, at the start of a line-using command (R105). -/
def State.disarm (s : State) : State := { s with status := { s.status with arm := false } }

/-- WBIT (R124). -/
def wbitBody (s : State) : State := s.disarm.writeBit s.wbitOperand

/-- RBIT (R125). -/
def rbitBody (s : State) : State :=
  let r := s.disarm.readBit
  r.1.putBit r.2

/-- WBYTE (R126). -/
def wbyteBody (s : State) : State := s.disarm.writeByte s.byteOperand

/-- RBYTE (R127). -/
def rbyteBody (s : State) : State :=
  let r := s.disarm.readByte
  r.1.putByte r.2

/-- The meaning of WBIT (op 0x02, R124). -/
def execWbit (s : State) : Host.Outcome State Fault Refusal :=
  .next (hostCommand .wbit wbitBody s)

/-- The meaning of RBIT (op 0x03, R125). -/
def execRbit (s : State) : Host.Outcome State Fault Refusal :=
  .next (hostCommand .rbit rbitBody s)

/-- The meaning of WBYTE (op 0x04, R126). -/
def execWbyte (s : State) : Host.Outcome State Fault Refusal :=
  .next (hostCommand .wbyte wbyteBody s)

/-- The meaning of RBYTE (op 0x05, R127). -/
def execRbyte (s : State) : Host.Outcome State Fault Refusal :=
  .next (hostCommand .rbyte rbyteBody s)

end Sys2Proof.Machine
end

