-- ==== Sys2Proof/Machine/Crc8.lean ====
section
/-!
DEFINITION. The Dallas/Maxim CRC8 (spec/42_crc8.md R140), identifier validation (R141) and the
command CRCB (R143).
-/

namespace Sys2Proof.Machine

/-- One input bit of the CRC8 register (R140). -/
def crcBit (c : Byte) (b : Bool) : Byte :=
  if c.getLsbD 0 ^^ b then (c >>> 1) ^^^ 0x8C#8 else c >>> 1

/-- `crc8_byte(c, d)`: input bits least-significant first (R140). -/
def crc8Byte (c d : Byte) : Byte := (List.range 8).foldl (fun c i => crcBit c (d.getLsbD i)) c

/-- `crc8(bytes)`, "seeded to zero" (R140). -/
def crc8 (bs : List Byte) : Byte := bs.foldl crc8Byte 0x00#8

/-- `valid(buf)`: `crc8(buf[0..6]) = buf[7]` (R141). It touches no register (R142). -/
def validRom (buf : Ident) : Bool := crc8 (buf.toList.take 7) == buf[7]

/-- CRCB: `x[CRC] <- crc8_byte(x[CRC], x[DATA])` (R143). -/
def crcbBody (s : State) : State := { s with crc := crc8Byte s.crc s.byteOperand }

/-- The meaning of CRCB (op 0x06, R143). -/
def execCrcb (s : State) : Host.Outcome State Fault Refusal :=
  .next (hostCommand .crcb crcbBody s)

end Sys2Proof.Machine
end

