-- ==== Sys2Proof/Machine/LineReset.lean ====
section
/-!
DEFINITION. Reset & Presence (spec/40_line_reset.md R104) and the command RESET (R106).
-/

namespace Sys2Proof.Machine

/-- The last lines of `ResetPresence`: `x[STATUS].PD <- pd ; x[STATUS].ARM <- 0`, where pd is
"sampled level == low" (R104). -/
def State.setPresence (sampled : Bool) (s : State) : State :=
  { s with status := { s.status with pd := !sampled, arm := false } }

/-- `ResetPresence()`; what it returns is `x[STATUS].PD` after it (R104). -/
def State.resetPresence (s : State) : State :=
  let r := ((s.driveLow s.params.tRSTL).release s.params.tPDS).sample
  (r.1.release s.params.tRSTR).setPresence r.2

/-- RESET after `ResetPresence`: ARM when there was a presence, ERR_NOPRES when not (R106). -/
def State.resetOutcome (s : State) : State :=
  if s.status.pd then { s with status := { s.status with arm := true } }
  else s.raise .errNopres

/-- RESET (R106). -/
def resetBody (s : State) : State := s.resetPresence.resetOutcome

/-- The meaning of RESET (op 0x01, R106). -/
def execReset (s : State) : Host.Outcome State Fault Refusal :=
  .next (hostCommand .reset resetBody s)

end Sys2Proof.Machine
end

