-- ==== Sys2Proof/Machine/Presence.lean ====
section
/-!
DEFINITION. Read-ROM and the Presence & Identity tracker (spec/44_presence.md R180 to R190) with
the commands RDROM and POLL.
-/

namespace Sys2Proof.Machine

/-- `READ_ROM_CMD` (spec/30_encoding.md R72). -/
def readRomCmd : Byte := 0x33#8

/-- `for i in i..7: buf[i] <- ReadByte()` with k bytes left (R181). -/
def readRomBytes (b : RomTarget) : (k i : Nat) → State → State
  | 0, _, s => s
  | k + 1, i, s => readRomBytes b k (i + 1) (s.readByte.1.romPut b i s.readByte.2)

/-- `ReadRom(buf)`; what it returns is `valid(buf)` after it (R181). -/
def State.readRom (b : RomTarget) (s : State) : State :=
  readRomBytes b 8 0 (s.writeByte readRomCmd)

/-- RDROM after `ReadRom`: CRCOK, and ERR_CRC on a mismatch (R182). -/
def State.rdromOutcome (s : State) : State :=
  State.raiseIf (!validRom s.rombuf) .errCrc
    { s with status := { s.status with crcok := validRom s.rombuf } }

/-- RDROM (R182). -/
def rdromBody (s : State) : State := (s.disarm.readRom .rombuf).rdromOutcome

/-- `Removed()` (R185). -/
def State.removed (s : State) : State :=
  if s.status.session then
    let s := s.raise .evRemoved
    { s with
      status :=
        { s.status with session := false, idv := if s.rmclr then false else s.status.idv } }
  else s

/-- `Presence()` (R186). -/
def State.present (s : State) : State :=
  if s.status.session then s
  else
    let s := s.raise .evPresent
    { s with status := { s.status with session := true } }

/-- `Adopt()` (R188): all eight bytes in one step. -/
def State.adopt (s : State) : State :=
  if s.status.idv && s.pbuf == s.idBuf then s
  else
    State.raise .evIdchg
      { s with idBuf := s.pbuf, status := { s.status with idv := true } }

/-- POLL after `ReadRom(h.PBUF)`: ERR_CRC and nothing else on a mismatch, else `Adopt()`
(R187, R188). -/
def State.pollOutcome (s : State) : State :=
  if validRom s.pbuf then s.adopt else s.raise .errCrc

/-- POLL (R184). -/
def pollBody (s : State) : State :=
  let s := s.resetPresence
  if s.status.pd then (s.present.readRom .pbuf).pollOutcome else s.removed

/-- The autopoll start of R190 is enabled: AUTOPOLL = 1 and `h.APT ≥ T_POLL` (at `Idle`). -/
def State.autopollDue (s : State) : Bool := s.autopoll && decide (s.params.tPoll ≤ s.apt)

/-- The meaning of RDROM (op 0x10, R182). -/
def execRdrom (s : State) : Host.Outcome State Fault Refusal :=
  .next (hostCommand .rdrom rdromBody s)

/-- The meaning of POLL (op 0x20, R184), started by the host. -/
def execPoll (s : State) : Host.Outcome State Fault Refusal :=
  .next (hostCommand .poll pollBody s)

end Sys2Proof.Machine
end

