-- ==== Sys2Proof/Machine/Search.lean ====
section
/-!
DEFINITION. The ROM Search FSM and the device identifier cache (spec/43_search.md R150 to R163),
with the conflict resolutions C1 and C2 of spec/90_conflicts.md, and the commands SRCHF, SRCHN,
ENUM, ENUMC.
-/

namespace Sys2Proof.Machine

/-- `SEARCH_ROM_CMD` (spec/30_encoding.md R72). -/
def searchRomCmd : Byte := 0xF0#8

/-- `x[LD] <- 0 ; x[STATUS].LASTDEV <- 0`: the start of a new enumeration (R151, R161). -/
def State.clearSearch (s : State) : State :=
  { s with ld := 0x00#8, status := { s.status with lastdev := false } }

/-- `x[STATUS].SOK <- 0` (R152, R159). -/
def State.clearSok (s : State) : State := { s with status := { s.status with sok := false } }

/-- The branch `Choose(n)` takes: replay below LD, 0 at LD, 1 above it (R154, C1). -/
def State.chosenBranch (n : Nat) (s : State) : Bool :=
  if n < s.ld.toNat then romBit s.rombuf n
  else if n = s.ld.toNat then false
  else true

/-- Parts 1 of `StepBit(n)` once the bits a and b differ or are both 0: the direction d, and the
last-zero marker of `Choose(n)` (R153, R154, C2). -/
def State.takeBranch (n : Nat) (a b : Bool) (s : State) : State × Bool :=
  if a ≠ b then (s, a)
  else if s.chosenBranch n then ({ s with lastzero := n }, true)
  else (s, false)

/-- `BIT(ROMBUF, n) <- d` (R155). -/
def State.recordBit (n : Nat) (d : Bool) (s : State) : State :=
  { s with rombuf := romSetBit s.rombuf n d }

/-- `Complete()` (R156). -/
def State.completePass (s : State) : State :=
  { s with
    ld := BitVec.ofNat 8 s.lastzero
    status :=
      { s.status with lastdev := s.lastzero == 0, sok := true, crcok := validRom s.rombuf } }

/-- What the two aborts have in common: LD, LASTDEV, SOK and CRCOK cleared (R157, R158). -/
def State.abortPass (s : State) : State :=
  { s with
    ld := 0x00#8
    status := { s.status with lastdev := false, sok := false, crcok := false } }

/-- `Abort(Conflict)` (R157). -/
def State.abortConflict (s : State) : State := s.abortPass.raise .errSrch

/-- `Abort(NoPres)` (R158). -/
def State.abortNoPres (s : State) : State := s.abortPass

/-- `StepBit(n)` (R153 to R155): none when it read {1,1}, with the state in which it did. -/
def State.stepBit (n : Nat) (s : State) : State × Bool :=
  let a := s.readBit
  let b := a.1.readBit
  if a.2 && b.2 then (b.1, false)
  else
    let d := b.1.takeBranch n a.2 b.2
    ((d.1.recordBit n d.2).writeBit d.2, true)

/-- `for n in n..64: StepBit(n)` with k positions left, then `Complete()` (R152). -/
def searchBits : (k n : Nat) → State → State × PassResult
  | 0, _, s => (s.completePass, .ok)
  | k + 1, n, s =>
    if (s.stepBit n).2 then searchBits k (n + 1) (s.stepBit n).1
    else ((s.stepBit n).1.abortConflict, .conflict)

/-- `SearchPass()` (R152). -/
def State.searchPass (s : State) : State × PassResult :=
  let s := s.clearSok.resetPresence
  if s.status.pd then searchBits 64 1 { s.writeByte searchRomCmd with lastzero := 0 }
  else (s.abortNoPres, .noPres)

/-- `if r = Ok and x[STATUS].CRCOK = 0: raise EV(ERR_CRC)` (R151, R159). -/
def State.reportCrc (r : PassResult) (s : State) : State :=
  State.raiseIf (r == .ok && !s.status.crcok) .errCrc s

/-- SRCHF and SRCHN after their first lines: one pass and its CRC report (R151, R159). -/
def State.onePass (s : State) : State := s.searchPass.1.reportCrc s.searchPass.2

/-- SRCHF (R151). -/
def srchfBody (s : State) : State := s.clearSearch.onePass

/-- SRCHN (R159). -/
def srchnBody (s : State) : State := if s.status.lastdev then s.clearSok else s.onePass

/-- `Insert()`: the whole identifier in one step, only when CRCOK = 1; no duplicate check (R160). -/
def State.insertRom (s : State) : State :=
  if s.status.crcok then
    { s with cache := s.cache.set s.ccount.toNat s.rombuf, ccount := s.ccount + 1 }
  else s.raise .errCrc

/-- The three checks at the head of `RunEnum`'s loop, in the order shown (R163). -/
def State.enumStops (s : State) : Bool :=
  s.status.lastdev || s.ccount.toNat == s.params.cacheDepth || s.passes == s.params.passLimit

/-- `RunEnum`'s loop (R163); k bounds the recursion and is never what ends the loop. -/
def enumLoop : (k : Nat) → State → State
  | 0, s => s
  | k + 1, s =>
    if s.enumStops then s
    else
      let r := { s with passes := s.passes + 1 }.searchPass
      if r.2 = .ok then enumLoop k r.1.insertRom else r.1

/-- `RunEnum()` (R163), for the block's CACHE_DEPTH and PASS_LIMIT (R8). -/
def runEnum (s : State) : State := enumLoop (s.params.passLimit + 1) { s with passes := 0 }

/-- `x[CCOUNT] <- 0` (R161, R162). -/
def State.emptyCache (s : State) : State := { s with ccount := 0x00#8 }

/-- ENUM (R161). -/
def enumBody (s : State) : State := runEnum s.clearSearch.emptyCache

/-- ENUMC (R162). -/
def enumcBody (s : State) : State := runEnum s.emptyCache

/-- The meaning of SRCHF (op 0x11, R151). -/
def execSrchf (s : State) : Host.Outcome State Fault Refusal :=
  .next (hostCommand .srchf srchfBody s)

/-- The meaning of SRCHN (op 0x12, R159). -/
def execSrchn (s : State) : Host.Outcome State Fault Refusal :=
  .next (hostCommand .srchn srchnBody s)

/-- The meaning of ENUM (op 0x13, R161). -/
def execEnum (s : State) : Host.Outcome State Fault Refusal :=
  .next (hostCommand .enum enumBody s)

/-- The meaning of ENUMC (op 0x14, R162). -/
def execEnumc (s : State) : Host.Outcome State Fault Refusal :=
  .next (hostCommand .enumc enumcBody s)

end Sys2Proof.Machine
end

