-- ==== Sys2Proof/Machine/Dispatch.lean ====
section
/-!
DEFINITION. The meaning of each command (spec/30_encoding.md R75), one arm per constructor.
-/

namespace Sys2Proof.Machine

def exec (i : Instr) (s : State) : Host.Outcome State Fault Refusal :=
  match i with
  | .reset => Sys2Proof.Machine.execReset s
  | .wbit => Sys2Proof.Machine.execWbit s
  | .rbit => Sys2Proof.Machine.execRbit s
  | .wbyte => Sys2Proof.Machine.execWbyte s
  | .rbyte => Sys2Proof.Machine.execRbyte s
  | .crcb => Sys2Proof.Machine.execCrcb s
  | .rdrom => Sys2Proof.Machine.execRdrom s
  | .srchf => Sys2Proof.Machine.execSrchf s
  | .srchn => Sys2Proof.Machine.execSrchn s
  | .enum => Sys2Proof.Machine.execEnum s
  | .enumc => Sys2Proof.Machine.execEnumc s
  | .poll => Sys2Proof.Machine.execPoll s

end Sys2Proof.Machine
end

