-- ==== Sys2Proof/Machine/HostPort.lean ====
section
/-!
DEFINITION. Host accesses to the register window (spec/20_memory.md R50 to R57; register map
spec/30_encoding.md R74).
-/

namespace Sys2Proof.Machine

/-- The value a register holds, as the host would read it (R51, R52; `10_state.md` R23 to R34). -/
def State.regValue (r : Reg) (s : State) : Byte :=
  match r with
  | .cmd => s.cmd
  | .status => s.status.byte
  | .events => s.events
  | .ie => s.ie
  | .ctrl => s.ctrl
  | .data => s.data
  | .crc => s.crc
  | .ld => s.ld
  | .ccount => s.ccount
  | .csel => s.csel
  | .rombuf i => s.rombuf[i]
  | .ident i => s.idBuf[i]
  | .cent i => s.cent i
  | .reserved => 0x00#8

/-- The registers whose reads are draws while BUSY = 1 (R54). -/
def drawnWhileBusy : Reg → Bool
  | .data | .crc | .ld | .ccount => true
  | .rombuf _ | .cent _ => true
  | .cmd | .status | .events | .ie | .ctrl | .csel => false
  | .ident _ | .reserved => false

/-- `MemRead(a, 1)`: the value returned and the state after; only the environment's record of it
changes (R51, R54, R57; notes/assumptions/2.md). -/
def State.memRead (a : Addr) (s : State) : Byte × State :=
  let record (v : Byte) (draws : Nat) : State :=
    { s with env := { s.env with nDraws := draws, reads := s.env.reads ++ [(a, v)] } }
  if s.status.busy && drawnWhileBusy (addrReg a) then
    let v := Config.busyRead s.env.nDraws
    (v, record v (s.env.nDraws + 1))
  else
    let v := s.regValue (addrReg a)
    (v, record v s.env.nDraws)

/-- The CTRL write: `x[CTRL] <- v & 0x03`; "a 0→1 change of bit 0 also sets `h.APT <- 0`" (R51). -/
def State.writeCtrl (v : Byte) (s : State) : State :=
  { s with
    ctrl := v &&& 0x03#8
    apt := if !s.autopoll && v.getLsbD 0 then 0 else s.apt }

/-- `MemWrite(a, 1, v)`, by the register at a (R51 to R53). -/
def State.memWrite (r : Reg) (v : Byte) (s : State) : State :=
  match r with
  | .cmd => s.dispatch v
  | .events => { s with events := s.events &&& ~~~v }
  | .ie => { s with ie := v }
  | .ctrl => s.writeCtrl v
  | .data => if s.status.busy then s else { s with data := v }
  | .crc => if s.status.busy then s else { s with crc := v }
  | .csel => { s with csel := v }
  | .status | .ld | .ccount => s
  | .rombuf _ | .ident _ | .cent _ => s
  | .reserved => s

/-- One host access; a width other than 1 is refused (R55). -/
def State.hostAccess (acc : HostAccess) (s : State) : Host.Outcome State Fault Refusal :=
  match acc with
  | .read a width => if width = 1 then .next (s.memRead a).2 else .refused .accessWidth
  | .write a width v =>
    if width = 1 then .next (s.memWrite (addrReg a) v) else .refused .accessWidth

/-- One host operation in the 16-bit notation; "Encodings with bit 14 = 1 are not host operations"
(spec/30_encoding.md R81). -/
def State.hostWord (w : HostWord) (s : State) : Host.Outcome State Fault Refusal :=
  match decodeHostWord w with
  | some acc => s.hostAccess acc
  | none => .refused .notHostOperation

end Sys2Proof.Machine
end

