-- ==== Sys2Proof/Machine/Sequencer.lean ====
section
/-!
DEFINITION. The sequencer step by step (spec/10_state.md R22, R36; spec/70_reset_and_hazards.md
R240): one line primitive a step, and between two of them one step for each routine's run of
assignments (notes/assumptions/4.md). Host accesses, RST and time land between two of these steps
(spec/20_memory.md R56). The assignments are the ones the commands' bodies are made of.
-/

namespace Sys2Proof.Machine

/-! ### The line primitives between two points of the pseudocode -/

/-- The primitives of `ResetPresence` (R104, R107). -/
def resetPrims (p : Config.Params) : List Prim :=
  [.low p.tRSTL, .rel p.tPDS, .smp, .rel p.tRSTR]

/-- The primitives of a write slot (R120, R129). -/
def writeBitPrims (p : Config.Params) (b : Bool) : List Prim :=
  if b then [.low p.tW1L, .rel p.tW1R] else [.low p.tW0L, .rel p.tW0R]

/-- The primitives of a read slot (R121, R129). -/
def readBitPrims (p : Config.Params) : List Prim :=
  [.low p.tRL, .rel p.tRS, .smp, .rel p.tRR]

/-- Eight write slots, least-significant bit first (R122). -/
def writeBytePrims (p : Config.Params) (v : Byte) : List Prim :=
  (List.range 8).flatMap (fun i => writeBitPrims p (v.getLsbD i))

/-- Eight read slots (R123). -/
def readBytePrims (p : Config.Params) : List Prim :=
  (List.range 8).flatMap (fun _ => readBitPrims p)

/-- The two read slots of a search position (R153). -/
def pairPrims (p : Config.Params) : List Prim := readBitPrims p ++ readBitPrims p

/-- `ReadRom` up to its first byte: 0x33 and eight read slots (R181). -/
def romPrims (p : Config.Params) : List Prim := writeBytePrims p readRomCmd ++ readBytePrims p

/-- Perform one primitive; the bit it sampled, if it sampled one. -/
def State.perform (p : Prim) (s : State) : State × List Bool :=
  match p with
  | .low t => (s.driveLow t, [])
  | .rel t => (s.release t, [])
  | .smp => (s.sample.1, [s.sample.2])

/-- The byte of eight bits, the first one bit 0 (R123). -/
def byteOf (bits : List Bool) : Byte :=
  (List.range 8).foldl (fun r i => setBit r i (bits[i]?.getD true)) 0x00#8

/-! ### The points of the pseudocode -/

/-- Go on with the primitives `todo`, then with the point `next`. -/
def State.goto (op : Instr) (o : Origin) (todo : List Prim) (next : Point) (s : State) : State :=
  { s with seq := .run op o { todo := todo, got := [], next := next } }

/-- The first lines of `SearchPass` (R152); ARM is cleared here too (R105, notes/assumptions/6.md). -/
def State.beginPass (op : Instr) (o : Origin) (s : State) : State :=
  s.clearSok.disarm.goto op o (resetPrims s.params) .presence

/-- The first line of each command. -/
def State.beginCommand (op : Instr) (o : Origin) (s : State) : State :=
  match op with
  | .reset => s.goto op o (resetPrims s.params) .presence
  | .wbit => s.disarm.goto op o (writeBitPrims s.params s.wbitOperand) .finish
  | .rbit => s.disarm.goto op o (readBitPrims s.params) .bitRead
  | .wbyte => s.disarm.goto op o (writeBytePrims s.params s.byteOperand) .finish
  | .rbyte => s.disarm.goto op o (readBytePrims s.params) .byteRead
  | .crcb => (crcbBody s).goto op o [] .finish
  | .rdrom => s.disarm.goto op o (romPrims s.params) (.romByte 0)
  | .srchf => s.clearSearch.beginPass op o
  | .srchn => if s.status.lastdev then s.clearSok.goto op o [] .finish else s.beginPass op o
  | .enum => { s.clearSearch.emptyCache with passes := 0 }.goto op o [] .enumHead
  | .enumc => { s.emptyCache with passes := 0 }.goto op o [] .enumHead
  | .poll => s.disarm.goto op o (resetPrims s.params) .presence

/-- What a command does with the presence it asked for (R106, R152, R184). -/
def State.afterPresence (op : Instr) (o : Origin) (s : State) : State :=
  match op with
  | .reset => s.resetOutcome.goto op o [] .finish
  | .srchf | .srchn | .enum | .enumc =>
    if s.status.pd then s.goto op o (writeBytePrims s.params searchRomCmd) .searchSent
    else s.abortNoPres.goto op o [] (.passDone .noPres)
  | .poll =>
    if s.status.pd then
      s.present.goto op o (romPrims s.params) (.romByte 0)
    else s.removed.goto op o [] .finish
  | .wbit | .rbit | .wbyte | .rbyte | .crcb | .rdrom => s.goto op o [] .finish

/-- The buffer a command's `ReadRom` fills (R182, R187). -/
def romTarget (op : Instr) : RomTarget := if op = .poll then .pbuf else .rombuf

/-- The end of `ReadRom` (R182, R184). -/
def State.afterRom (op : Instr) (o : Origin) (s : State) : State :=
  if op = .poll then s.pollOutcome.goto op o [] .finish
  else s.rdromOutcome.goto op o [] .finish

/-- The two reads of position n are a and b: abort on {1,1}, else record the branch and go on to the
write slot (R153 to R155, R157). -/
def State.afterPair (op : Instr) (o : Origin) (n : Nat) (a b : Bool) (s : State) : State :=
  if a && b then s.abortConflict.goto op o [] (.passDone .conflict)
  else
    let d := s.takeBranch n a b
    (d.1.recordBit n d.2).goto op o (writeBitPrims s.params d.2) (.written n)

/-- What a command does with a pass's result (R151, R159, R163). -/
def State.afterPass (op : Instr) (o : Origin) (r : PassResult) (s : State) : State :=
  if op = .enum ∨ op = .enumc then
    if r = .ok then s.insertRom.goto op o [] .enumHead else s.goto op o [] .finish
  else (s.reportCrc r).goto op o [] .finish

/-- The head of `RunEnum`'s loop (R163). -/
def State.enumHead (op : Instr) (o : Origin) (s : State) : State :=
  if s.enumStops then s.goto op o [] .finish
  else { s with passes := s.passes + 1 }.beginPass op o

/-- One step from a point of the pseudocode; `got` holds the bits sampled on the way to it. -/
def State.resume (op : Instr) (o : Origin) (got : List Bool) (pt : Point) (s : State) : State :=
  match pt with
  | .start => s.beginCommand op o
  | .presence => (s.setPresence (got[0]?.getD true)).goto op o [] .presenceKnown
  | .presenceKnown => s.afterPresence op o
  | .bitRead => (s.putBit (got[0]?.getD true)).goto op o [] .finish
  | .byteRead => (s.putByte (byteOf got)).goto op o [] .finish
  | .romByte i =>
    let t := s.romPut (romTarget op) i (byteOf got)
    if i < 7 then t.goto op o (readBytePrims s.params) (.romByte (i + 1))
    else t.goto op o [] .romDone
  | .romDone => s.afterRom op o
  | .searchSent => { s with lastzero := 0 }.goto op o (pairPrims s.params) (.pair 1)
  | .pair n => s.afterPair op o n (got[0]?.getD true) (got[1]?.getD true)
  | .written n =>
    if n < 64 then s.goto op o (pairPrims s.params) (.pair (n + 1))
    else s.completePass.goto op o [] (.passDone .ok)
  | .passDone r => s.afterPass op o r
  | .enumHead => s.enumHead op o
  | .finish => s.finish op o

/-- One sequencer step: the next line primitive or the next point of the running command (R36); an
autopoll start at `Idle` when it is due (R190); nothing when nothing is enabled (R232). -/
def State.seqStep (s : State) : State :=
  match s.seq with
  | .idle => if s.autopollDue then s.accept .poll .auto else s
  | .run op o pos =>
    match pos.todo with
    | [] => s.resume op o pos.got pos.next
    | p :: todo =>
      let r := s.perform p
      { r.1 with seq := .run op o { todo := todo, got := pos.got ++ r.2, next := pos.next } }

/-- n sequencer steps with nothing between them. -/
def State.seqSteps : (n : Nat) → State → State
  | 0, s => s
  | n + 1, s => State.seqSteps n s.seqStep

end Sys2Proof.Machine
end

