-- ==== Sys2Proof/Machine/Step.lean ====
section
/-!
DEFINITION. One step of the machine: the next thing the environment does, or one sequencer step
(spec/20_memory.md R60: one interleaving of host accesses and sequencer steps).
-/

namespace Sys2Proof.Machine

/-- The state once the input at the head of the list has been taken off it. -/
def State.withInputs (inputs : List Input) (s : State) : State :=
  { s with env := { s.env with inputs := inputs } }

/-- A value written to CMD and run to its end, `do MNEMONIC` (spec/30_encoding.md R81): the meaning
of the command it decodes to, or the rejection of an illegal opcode (R76, R79). While BUSY = 1 this
is one rejected write, with no wait for BUSY = 0 after it (DESIGN CHOICE, notes/assumptions/5.md). -/
def State.command (v : Byte) (s : State) : Host.Outcome State Fault Refusal :=
  match decodeOpcode v with
  | .ok i => exec i s
  | .error _ => .next s.reject

/-- What one input does. -/
def State.takeInput (inp : Input) (s : State) : Host.Outcome State Fault Refusal :=
  match inp with
  | .seq => .next s.seqStep
  | .access a => s.hostAccess a
  | .host w => s.hostWord w
  | .command v => s.command v
  | .rst => .next s.blockReset
  | .elapse us => .next (s.elapse us)

/-- One step. With no input pending the sequencer moves (notes/assumptions/3.md). -/
def step (s : State) : Host.Outcome State Fault Refusal :=
  match s.env.inputs with
  | [] => .next s.seqStep
  | inp :: rest => (s.withInputs rest).takeInput inp

/-- The opcode-table word as the very next thing the host does: write it to CMD and wait
(notes/assumptions/11.md). -/
def State.withFetchWord (s : State) (nbits w : Nat) : State :=
  s.withInputs (.command (BitVec.ofNat 8 (w % 2 ^ nbits)) :: s.env.inputs)

end Sys2Proof.Machine
end

