-- ==== Sys2Proof/Safety.lean ====
section
/-!
DEFINITION. The terms the claims are stated in: the invariant of spec/10_state.md R45, the line
traces of R107 and R129 with their nominal time, the bits a run of samples reads, and the wired-AND
bus of spec/95_test_vectors.md section 2.
-/

namespace Sys2Proof.Machine

/-! ### The invariant -/

/-- The primitives still to perform keep the line protocol, starting from line drive d: samples are
taken "only while `h.DRV = 0`" (R102), and the line is released when they are done (R128). -/
def primsOk (d : Drive) : List Prim → Prop
  | [] => d = .released
  | .low _ :: ps => primsOk .low ps
  | .rel _ :: ps => primsOk .released ps
  | .smp :: ps => d = .released ∧ primsOk d ps

/-- The points inside a search pass. -/
def Point.inPass : Point → Bool
  | .presence | .presenceKnown | .searchSent | .pair _ | .written _ | .passDone _ => true
  | .start | .bitRead | .byteRead | .romByte _ | .romDone | .enumHead | .finish => false

/-- The bit position a point stands at, 0 outside the position loop of R152. -/
def Point.position : Point → Nat
  | .pair n => n
  | .written n => n
  | .start | .presence | .presenceKnown | .bitRead | .byteRead | .romByte _ => 0
  | .romDone | .searchSent | .passDone _ | .enumHead | .finish => 0

/-- The commands whose pseudocode a point belongs to (R106, R124 to R127, R152, R163, R181). -/
def Point.belongsTo (op : Instr) : Point → Bool
  | .start | .finish => true
  | .presence | .presenceKnown =>
    op == .reset || op == .poll || op == .srchf || op == .srchn || op == .enum || op == .enumc
  | .bitRead => op == .rbit
  | .byteRead => op == .rbyte
  | .romByte _ | .romDone => op == .rdrom || op == .poll
  | .searchSent | .pair _ | .written _ | .passDone _ =>
    op == .srchf || op == .srchn || op == .enum || op == .enumc
  | .enumHead => op == .enum || op == .enumc

/-- What holds at a position of a running command. -/
structure PosInv (op : Instr) (pos : Pos) (s : State) : Prop where
  /-- the line protocol (R102, R128) -/
  line : primsOk s.drv pos.todo
  /-- "n (1..64)" (R84 (b)) -/
  position : pos.next.position ≤ 64
  /-- the point is one of the command's own pseudocode (R36) -/
  own : pos.next.belongsTo op = true
  /-- "CCOUNT < CACHE_DEPTH always holds at this point" (R160), and so in the whole pass -/
  room : op = .enum ∨ op = .enumc → pos.next.inPass = true →
    s.ccount.toNat < s.params.cacheDepth
  /-- CRCOK is the check of ROMBUF when a completed pass returns (R156) -/
  checked : pos.next = .passDone .ok → s.status.crcok = validRom s.rombuf

/-- R45's invariants, with the bounds of the hidden counters (R37, R40, R84) and what holds at the
position of a running command. -/
structure Inv (s : State) : Prop where
  /-- the parameters are ones R8 allows -/
  params : s.params.wf = true
  /-- `x[LD] ≤ 64` -/
  ld : s.ld.toNat ≤ 64
  /-- `x[CCOUNT] ≤ CACHE_DEPTH` -/
  ccount : s.ccount.toNat ≤ s.params.cacheDepth
  /-- `x[STATUS].BUSY = 1 ⇔ h.SEQ ≠ Idle` -/
  busy : s.status.busy = true ↔ s.seq ≠ .idle
  /-- `h.DRV = 0` whenever `h.SEQ = Idle` -/
  idleReleased : s.seq = .idle → s.drv = .released
  /-- `x[STATUS].IDV = 1 ⇒ crc8(ID[0..6]) = ID[7]` -/
  idValid : s.status.idv = true → validRom s.idBuf = true
  /-- `x[CTRL][7:2] = 0` -/
  ctrl : s.ctrl &&& 0xFC#8 = 0x00#8
  /-- every entry below CCOUNT is CRC-valid -/
  cacheValid : ∀ (e : Nat) (x : Ident),
    e < s.ccount.toNat → s.cache[e]? = some x → validRom x = true
  /-- the cache has CACHE_DEPTH entries (R39) -/
  cacheLength : s.cache.length = s.params.cacheDepth
  /-- `h.LASTZERO` is 0..64 (R37) -/
  lastzero : s.lastzero ≤ 64
  /-- `h.PASSES` is 0..PASS_LIMIT (R40) -/
  passes : s.passes ≤ s.params.passLimit
  /-- the autopoll timer stops at `T_POLL` (R84 (d)) -/
  apt : s.apt ≤ s.params.tPoll
  /-- the position of a running command (R36) -/
  pos : ∀ op o pos, s.seq = .run op o pos → PosInv op pos s

/-! ### Line traces and nominal time -/

/-- The nominal duration of a phase in µs (R240). -/
def Phase.nominal : Phase → Nat
  | .low t => t
  | .rel t => t
  | .smp _ => 0

/-- "a sum of nominal durations, which is a lower bound on real time" (R240). -/
def traceTime (ps : List Phase) : Nat := (ps.map Phase.nominal).sum

/-- The same in block clock cycles, at CLK_PER_US cycles a microsecond (R7, R209). -/
def traceCycles (ps : List Phase) : Nat := traceTime ps * Config.clkPerUs

/-- `LOW(T_RSTL) ; REL(T_PDS) ; SMP ; REL(T_RSTR)` (R107). -/
def resetTrace (p : Config.Params) (b : Bool) : List Phase :=
  [.low p.tRSTL, .rel p.tPDS, .smp b, .rel p.tRSTR]

/-- A write slot's trace (R129). -/
def writeTrace (p : Config.Params) (b : Bool) : List Phase :=
  if b then [.low p.tW1L, .rel p.tW1R] else [.low p.tW0L, .rel p.tW0R]

/-- A read slot's trace (R129). -/
def readTrace (p : Config.Params) (b : Bool) : List Phase :=
  [.low p.tRL, .rel p.tRS, .smp b, .rel p.tRR]

/-- Eight write slots, least-significant bit first (R122). -/
def writeByteTrace (p : Config.Params) (v : Byte) : List Phase :=
  (List.range 8).flatMap (fun i => writeTrace p (v.getLsbD i))

/-- The trace of n read slots that return the samples from the k-th to come (R123). -/
def readsTrace (p : Config.Params) (e : Env) (k n : Nat) : List Phase :=
  (List.range n).flatMap (fun i => readTrace p (e.sampleAt (k + i)))

/-- The environment after k samples and the phases ps, otherwise as before. -/
def Env.after (e : Env) (k : Nat) (ps : List Phase) : Env :=
  { e with nSamples := e.nSamples + k, trace := e.trace ++ ps }

/-- Command i, run whole in state s, completes and adds n µs of nominal line time (R241). -/
def TakesLineTime (i : Instr) (s : State) (n : Nat) : Prop :=
  ∃ t, exec i s = .next t ∧ traceTime t.env.trace = traceTime s.env.trace + n

/-- What every completed host command has in common: CMD holds its opcode (R77), the sequencer is
idle and BUSY 0, the events in `ev` are raised (R80), the line is released (R128), k samples were
taken and the phases ps recorded. All else is as before. -/
def State.ended (op : Byte) (k : Nat) (ps : List Phase) (ev : Byte) (s : State) : State :=
  { s with
    cmd := op
    status := { s.status with busy := false }
    events := s.events ||| ev
    drv := .released
    seq := .idle
    env := s.env.after k ps }

/-! ### What samples read -/

/-- v is the byte that eight read slots return, LSB first, from the k-th sample to come (R123). -/
def ReadsByte (e : Env) (k : Nat) (v : Byte) : Prop := ∀ i < 8, v.getLsbD i = e.sampleAt (k + i)

/-- buf is the identifier that 64 read slots return, from the k-th sample to come (R181, R58). -/
def ReadsIdent (e : Env) (k : Nat) (buf : Ident) : Prop :=
  ∀ i (h : i < 8), ReadsByte e (k + 8 * i) buf[i]

/-! ### A search pass in terms of its samples (R153 to R157) -/

/-- The identity bit of position n of a pass whose presence sample is the k-th to come. -/
def identityBit (e : Env) (k n : Nat) : Bool := e.sampleAt (k + (2 * n - 1))

/-- The complement bit of position n. -/
def complementBit (e : Env) (k n : Nat) : Bool := e.sampleAt (k + 2 * n)

/-- The direction R153 and R154 give position n when the previous pass left `prev` and `ld`. -/
def branchOf (e : Env) (k : Nat) (prev : Ident) (ld n : Nat) : Bool :=
  if identityBit e k n = complementBit e k n then
    if n < ld then romBit prev n else decide (ld < n)
  else identityBit e k n

/-- Position n is a branch conflict at which the pass takes 1: its 0-branch stays untaken (R154). -/
def leavesZero (e : Env) (k : Nat) (prev : Ident) (ld n : Nat) : Prop :=
  identityBit e k n = false ∧ complementBit e k n = false ∧ branchOf e k prev ld n = true

/-- z is the last of the first m positions that leaves a 0-branch untaken, or 0 if none does. -/
def LastZero (e : Env) (k : Nat) (prev : Ident) (ld m z : Nat) : Prop :=
  (∀ n, 1 ≤ n → n ≤ m → leavesZero e k prev ld n → n ≤ z) ∧
    (z = 0 ∨ 1 ≤ z ∧ z ≤ m ∧ leavesZero e k prev ld z)

/-- ROMBUF after the first m positions of a pass: the directions taken, then the old bits. -/
def PassBits (e : Env) (k : Nat) (prev : Ident) (ld m : Nat) (buf : Ident) : Prop :=
  ∀ n, 1 ≤ n → n ≤ 64 →
    romBit buf n = if n ≤ m then branchOf e k prev ld n else romBit prev n

/-- The trace of position n when it is completed: two read slots and a write slot (R153, R155). -/
def positionTrace (p : Config.Params) (e : Env) (k : Nat) (prev : Ident) (ld n : Nat) :
    List Phase :=
  readTrace p (identityBit e k n) ++ readTrace p (complementBit e k n) ++
    writeTrace p (branchOf e k prev ld n)

/-- The trace of a pass that completed its first m positions: reset, 0xF0, the positions (R152). -/
def passTrace (p : Config.Params) (e : Env) (k : Nat) (prev : Ident) (ld m : Nat) : List Phase :=
  resetTrace p false ++ writeByteTrace p 0xF0#8 ++
    (List.range m).flatMap (fun i => positionTrace p e k prev ld (i + 1))

/-! ### The wired-AND bus (spec/95_test_vectors.md section 2, R102) -/

/-- The slaves still in the search at position n, when the bits written before it are those of w:
"slaves whose bit n ≠ d leave the search" (R155). -/
def inSearch (slaves : List Ident) (w : Ident) (n : Nat) : List Ident :=
  slaves.filter (fun x => (List.range n).all (fun i => i == 0 || romBit x i == romBit w i))

/-- In the pass whose presence sample is the k-th to come, and in which the bits written are those
of w, the bus answers as the wired-AND of the slaves: presence low, then at each position the AND of
the identity bits and the AND of their complements. -/
def BusAnswers (e : Env) (k : Nat) (slaves : List Ident) (w : Ident) : Prop :=
  e.sampleAt k = slaves.isEmpty ∧
    ∀ n, 1 ≤ n → n ≤ 64 →
      identityBit e k n = (inSearch slaves w n).all (fun x => romBit x n) ∧
        complementBit e k n = (inSearch slaves w n).all (fun x => !romBit x n)

/-- x is greater than y "read as a bit string in line order (position 1 first)" (R166). -/
def LineGreater (x y : Ident) : Prop :=
  ∃ n, 1 ≤ n ∧ n ≤ 64 ∧ (∀ m, 1 ≤ m → m < n → romBit x m = romBit y m) ∧
    romBit x n = true ∧ romBit y n = false

/-- Position n is one where x takes 1 although a slave that agrees with x before n has 0 there. -/
def untaken (slaves : List Ident) (x : Ident) (n : Nat) : Prop :=
  romBit x n = true ∧ ∃ y ∈ inSearch slaves x n, romBit y n = false

/-- The search state an enumeration of these slaves is in after a pass that found `s.rombuf`:
LD is the last untaken 0-branch, and LASTDEV says there is none (R150, R156). -/
def Enumerating (slaves : List Ident) (s : State) : Prop :=
  s.rombuf ∈ slaves ∧
    (∀ n, 1 ≤ n → n ≤ 64 → untaken slaves s.rombuf n → n ≤ s.ld.toNat) ∧
    (s.ld.toNat = 0 ∨ s.ld.toNat ≤ 64 ∧ untaken slaves s.rombuf s.ld.toNat) ∧
    s.status.lastdev = (s.ld == 0x00#8)

/-! ### Enumerations (R160 to R164) -/

/-- How many passes of the last enumeration command ran to their end: all of them, or all but the
aborted last one (R163). -/
def State.completedPasses (s : State) : Nat := if s.status.sok then s.passes else s.passes - 1

/-- The identifiers that k passes of an enumeration cache, when they find those of `rest` one after
the other: the CRC-valid ones, in order (R160). -/
def cachedOf (rest : List Ident) (k : Nat) : List Ident := (rest.take k).filter validRom

/-- What ENUM or ENUMC leaves on a stable bus on which `rest` are the slaves still to be found,
greatest first: k passes, each finding the next of them, until none is left, the cache is full or
PASS_LIMIT is reached (R160, R163, R164). -/
structure FindsInOrder (slaves rest : List Ident) (s t : State) (k : Nat) : Prop where
  passes : t.passes = k ∧ 1 ≤ k ∧ k ≤ rest.length ∧ k ≤ s.params.passLimit
  /-- there was room before each pass -/
  room : ∀ j < k, (cachedOf rest j).length < s.params.cacheDepth
  /-- why no further pass runs -/
  stopped : k = rest.length ∨ (cachedOf rest k).length = s.params.cacheDepth ∨
    k = s.params.passLimit
  ccount : t.ccount.toNat = (cachedOf rest k).length
  cached : ∀ (e : Nat) (x : Ident), (cachedOf rest k)[e]? = some x → t.cache[e]? = some x
  /-- the last pass found the k-th of them -/
  found : rest[k - 1]? = some t.rombuf
  /-- LD, LASTDEV and ROMBUF hold the enumeration, for the next ENUMC (R163) -/
  enumerating : Enumerating slaves t
  lastdev : t.status.lastdev = decide (k = rest.length)
  flags : t.status.sok = true ∧ t.status.pd = true ∧ t.status.arm = false ∧
    t.status.crcok = validRom t.rombuf
  /-- EV_DONE, and ERR_CRC when a pass found an identifier that is not CRC-valid -/
  events : t.events =
    s.events ||| 0x08#8 ||| (if (rest.take k).all validRom then 0x00#8 else 0x20#8)
  /-- R241's row, at the durations of R7 -/
  lineTime : s.params = Config.standard →
    traceTime t.env.trace = traceTime s.env.trace + 14960 * k

end Sys2Proof.Machine
end

