-- ==== Sys2Proof/Certificates/Slice0/Obligations.lean ====
section
/-!
DEFINITION. The statements for the provers, each a rule of spec/ or a property derived from rules,
about the machine and no program. What an instruction leaves unchanged is said by the record updates
of the next state: every field not named is as before.
-/

open Sys2Proof Sys2Proof.Machine

/-! ### Encoding -/

/-- R75: each opcode, written bit by bit as the rule's row gives it, decodes to its command. -/
def Obligations.OpcodeWordsDecodeToTheirCommands : Prop :=
  decodeOpcode 0b00000001#8 = .ok .reset ∧ decodeOpcode 0b00000010#8 = .ok .wbit ∧
  decodeOpcode 0b00000011#8 = .ok .rbit ∧ decodeOpcode 0b00000100#8 = .ok .wbyte ∧
  decodeOpcode 0b00000101#8 = .ok .rbyte ∧ decodeOpcode 0b00000110#8 = .ok .crcb ∧
  decodeOpcode 0b00010000#8 = .ok .rdrom ∧ decodeOpcode 0b00010001#8 = .ok .srchf ∧
  decodeOpcode 0b00010010#8 = .ok .srchn ∧ decodeOpcode 0b00010011#8 = .ok .enum ∧
  decodeOpcode 0b00010100#8 = .ok .enumc ∧ decodeOpcode 0b00100000#8 = .ok .poll

/-- R70: a command is its one opcode byte; decoding the bytes of an encoded command gives it back,
with the bytes after it. -/
def Obligations.DecodeOfEncodeGivesTheCommandBack : Prop :=
  ∀ (i : Instr) (rest : List Byte), i.wf = true ∧ decode (encode i ++ rest) = .ok (i, rest)

/-- R79: every byte is one of the twelve opcodes or one of the 243 illegal ones, never both, and a
host write of an illegal one raises ERR_CMD and changes nothing else. -/
def Obligations.EveryByteIsACommandOrIllegal : Prop :=
  ∀ v : Byte,
    (decodeOpcode v = .error (.illegalOpcode v) ↔
      v = 0x00#8 ∨ (0x07#8 ≤ v ∧ v ≤ 0x0F#8) ∨ (0x15#8 ≤ v ∧ v ≤ 0x1F#8) ∨ 0x21#8 ≤ v) ∧
    (decodeOpcode v = .error (.illegalOpcode v) ∨
      ∃ i, decodeOpcode v = .ok i ∧ opcode i = v) ∧
    (decodeOpcode v = .error (.illegalOpcode v) → ∀ s : State,
      s.memWrite .cmd v = { s with events := s.events ||| 0x80#8 })

/-- R81: the 16-bit encoding of a one-byte host access decodes to that access, and a word with bit
14 = 1 is no host operation. -/
def Obligations.HostOperationsRoundTrip : Prop :=
  (∀ acc : HostAccess, acc.wf = true → decodeHostWord (encodeHostWord acc) = some acc) ∧
  ∀ w : HostWord, w.getLsbD 14 = true → decodeHostWord w = none

/-- R73, R74: each register has the address of the map, and "no register is mirrored at a second
address". -/
def Obligations.EveryRegisterHasOneAddress : Prop :=
  (∀ r : Reg, r ≠ .reserved → addrReg (regAddr r) = r) ∧
  (∀ a b : Addr, addrReg a = addrReg b → addrReg a ≠ .reserved → a = b) ∧
  (∀ a : Addr, addrReg a = .reserved ↔ (0x0A#6 ≤ a ∧ a ≤ 0x0F#6) ∨ 0x28#6 ≤ a)

/-! ### One step -/

/-- A step whose next input is a value written to CMD with the host waiting (R81's `do`) runs the
command that value decodes to, after taking the input off the list; an illegal value raises ERR_CMD
(R79). That the command runs whole in this step is the model's choice (notes/assumptions/5.md). -/
def Obligations.StepRunsTheDecodedCommand : Prop :=
  ∀ (s : State) (v : Byte) (rest : List Input), s.env.inputs = .command v :: rest →
    (∀ i, decodeOpcode v = .ok i → step s = exec i (s.withInputs rest)) ∧
    (∀ e, decodeOpcode v = .error e →
      step s = .next { s.withInputs rest with events := s.events ||| 0x80#8 })

/-- Which agent a step moves: the head of the input list, the sequencer when it is empty
(notes/assumptions/3.md); time moves the autopoll timer only (notes/assumptions/7.md). -/
def Obligations.StepTakesTheNextInput : Prop :=
  ∀ (s : State) (rest : List Input),
    (s.env.inputs = [] → step s = .next s.seqStep) ∧
    (s.env.inputs = .seq :: rest → step s = .next (s.withInputs rest).seqStep) ∧
    (∀ us, s.env.inputs = .elapse us :: rest →
      step s = .next { s.withInputs rest with apt := min (s.apt + us) s.params.tPoll }) ∧
    (∀ w acc, s.env.inputs = .host w :: rest → decodeHostWord w = some acc →
      step s = (s.withInputs rest).hostAccess acc)

/-- R7, R8: the machine after reset has the parameters R7 decides, which R8 allows, and the line
forms of R107 and R129 then have R7's durations. -/
def Obligations.ParametersAfterResetAreR7s : Prop :=
  State.reset.params =
    { tRSTL := 480, tPDS := 70, tRSTR := 410, tW1L := 6, tW1R := 64, tW0L := 60, tW0R := 10
      tRL := 6, tRS := 9, tRR := 55, tPoll := 50000, cacheDepth := 8, passLimit := 64 } ∧
  State.reset.params.wf = true ∧
  ∀ b : Bool,
    resetTrace Config.standard b = [.low 480, .rel 70, .smp b, .rel 410] ∧
    writeTrace Config.standard b = (if b then [.low 6, .rel 64] else [.low 60, .rel 10]) ∧
    readTrace Config.standard b = [.low 6, .rel 9, .smp b, .rel 55]

/-- No step changes the parameters of the block (the model's reading of R7's "arguments",
notes/assumptions/9.md). -/
def Obligations.ParametersAreFixed : Prop :=
  ∀ s t : State, step s = .next t → t.params = s.params

/-- R44: what block reset leaves in every piece of state, whatever the parameters (R8), and so in the
machine after reset. -/
def Obligations.ResetLeavesTheTableOfValues : Prop :=
  (∀ (p : Config.Params) (e : Env),
    let s := State.initial p e
    s.cmd = 0x00#8 ∧ s.status.byte = 0x00#8 ∧ s.events = 0x00#8 ∧ s.ie = 0x00#8 ∧
    s.ctrl = 0x00#8 ∧ s.data = 0x00#8 ∧ s.crc = 0x00#8 ∧ s.ld = 0x00#8 ∧ s.ccount = 0x00#8 ∧
    s.csel = 0x00#8 ∧ (∀ i : Fin 8, s.rombuf[i] = 0x00#8) ∧ (∀ i : Fin 8, s.idBuf[i] = 0x00#8) ∧
    s.drv = .released ∧ s.seq = .idle ∧ s.lastzero = 0 ∧ (∀ i : Fin 8, s.pbuf[i] = 0x00#8) ∧
    s.cache.length = p.cacheDepth ∧ (∀ x ∈ s.cache, ∀ i : Fin 8, x[i] = 0x00#8) ∧
    s.passes = 0 ∧ s.apt = 0) ∧
  State.reset = State.initial Config.standard Env.quiet

/-- R231, R230: RST abandons whatever runs; every piece of block state takes its reset value in that
step, the line is released and no event is raised. The parameters and what stands outside the block
are untouched (notes/assumptions/10.md). -/
def Obligations.BlockResetReplacesEveryValue : Prop :=
  ∀ (s : State) (rest : List Input), s.env.inputs = .rst :: rest →
    step s = .next (State.initial s.params { s.env with inputs := rest })

/-! ### Invariants -/

/-- The invariant holds right after reset, for all parameters R8 allows (R45, R44, R8). -/
def Obligations.InvariantHoldsAfterReset : Prop :=
  ∀ (p : Config.Params) (e : Env), p.wf = true → Inv (State.initial p e)

/-- R45: every step, whatever the environment does, keeps the invariant. -/
def Obligations.EveryStepKeepsTheInvariant : Prop :=
  ∀ s t : State, Inv s → step s = .next t → Inv t

/-- R165, R189 (d), from every position of every command: whatever the samples are, the sequencer
alone reaches Idle. -/
def Obligations.EveryCommandEnds : Prop :=
  ∀ s : State, Inv s → ∃ n, (s.seqSteps n).seq = .idle

/-! ### A command run whole is its sequencer steps -/

/-- A host command run whole (R81's `do`; the model's choice of schedule, notes/assumptions/5.md) is
acceptance (R77) and a number of sequencer steps with nothing between them; the position reached is
then Idle. RDROM is accepted with ARM = 1 only (R182; RdromWithoutArmIsRejected). -/
def Obligations.CommandRunIsItsSequencerSteps : Prop :=
  ∀ (i : Instr) (s : State), s.status.busy = false → (i = .rdrom → s.status.arm = true) →
    ∃ n, exec i s = .next ((s.accept i .host).seqSteps n) ∧
      ((s.accept i .host).seqSteps n).seq = .idle

/-- R190: a poll the autopoll starts does what a host's POLL does, but leaves CMD as it was and does
not raise EV_DONE. -/
def Obligations.AutopollRunIsAPollWithoutDone : Prop :=
  ∀ s : State, s.status.busy = false →
    ∃ n t, exec .poll s = .next t ∧
      (s.accept .poll .auto).seqSteps n =
        { t with cmd := s.cmd, events := ((s.accept .poll .auto).seqSteps n).events } ∧
      ((s.accept .poll .auto).seqSteps n).events ||| 0x08#8 = t.events ∧
      (((s.accept .poll .auto).seqSteps n).events &&& 0x08#8) = s.events &&& 0x08#8

/-- R190, R232: with no input pending an idle sequencer starts a poll exactly when AUTOPOLL = 1 and
`h.APT ≥ T_POLL`, leaving CMD as it was; otherwise the step changes nothing. -/
def Obligations.AutopollStartsExactlyWhenDue : Prop :=
  ∀ s : State, s.seq = .idle → s.env.inputs = [] →
    (s.ctrl.getLsbD 0 = true → s.params.tPoll ≤ s.apt →
      step s = .next { s with
        seq := .run .poll .auto { todo := [], got := [], next := .start }
        status := { s.status with busy := true } }) ∧
    (s.ctrl.getLsbD 0 = false ∨ s.apt < s.params.tPoll → step s = .next s)

/-! ### The sequencer's single steps -/

/-- R100, R101, R102, R240: a line primitive is one step that changes the line drive (a sample only
takes the bus's answer), appends its labelled phase to the trace and moves the position on. -/
def Obligations.LinePrimitiveIsOneStep : Prop :=
  ∀ (s : State) (op : Instr) (o : Origin) (todo : List Prim) (got : List Bool) (pt : Point)
    (t : Nat), s.env.inputs = [] →
    (s.seq = .run op o { todo := .low t :: todo, got := got, next := pt } →
      step s = .next { s with
        drv := .low
        seq := .run op o { todo := todo, got := got, next := pt }
        env := s.env.after 0 [.low t] }) ∧
    (s.seq = .run op o { todo := .rel t :: todo, got := got, next := pt } →
      step s = .next { s with
        drv := .released
        seq := .run op o { todo := todo, got := got, next := pt }
        env := s.env.after 0 [.rel t] }) ∧
    (s.seq = .run op o { todo := .smp :: todo, got := got, next := pt } →
      step s = .next { s with
        seq := .run op o { todo := todo, got := got ++ [s.env.sampleAt 0], next := pt }
        env := s.env.after 1 [.smp (s.env.sampleAt 0)] })

/-- R80, R190: the end of a command is one step: SEQ Idle, BUSY 0, EV_DONE for a host command only,
and the autopoll timer restarted by a poll. -/
def Obligations.CommandEndIsOneStep : Prop :=
  ∀ (s : State) (op : Instr) (o : Origin) (got : List Bool), s.env.inputs = [] →
    s.seq = .run op o { todo := [], got := got, next := .finish } →
    step s = .next { s with
      seq := .idle
      status := { s.status with busy := false }
      events := if o = .host then s.events ||| 0x08#8 else s.events
      apt := if op = .poll then 0 else s.apt }

/-- R102: "It is called only while `h.DRV = 0`": a sequencer step that takes a sample starts with the
line released; and "at the end of every command, `h.DRV = 0`" (R128): a sequencer step that brings a
running command to Idle leaves the line released. From every state of the invariant. -/
def Obligations.SamplesAreTakenWithTheLineReleased : Prop :=
  ∀ s t : State, Inv s → (s.env.inputs = [] ∨ ∃ rest, s.env.inputs = .seq :: rest) →
    step s = .next t →
    (t.env.nSamples ≠ s.env.nSamples → s.drv = .released) ∧
    (s.seq ≠ .idle → t.seq = .idle → t.drv = .released)

/-! ### The dispatcher -/

/-- R76, R78, R235: while BUSY = 1 a host write to CMD is rejected: ERR_CMD and nothing else, and the
running command goes on. That `exec`, R81's `do`, is then this rejected write alone, with no wait for
BUSY = 0, is the model's choice (notes/assumptions/5.md). -/
def Obligations.CommandsWhileBusyAreRejected : Prop :=
  ∀ (i : Instr) (v : Byte) (s : State), s.status.busy = true →
    exec i s = .next { s with events := s.events ||| 0x80#8 } ∧
    s.memWrite .cmd v = { s with events := s.events ||| 0x80#8 }

/-- R182: "Without it, the write to CMD is rejected with ERR_CMD and nothing else happens." -/
def Obligations.RdromWithoutArmIsRejected : Prop :=
  ∀ s : State, s.status.busy = false → s.status.arm = false →
    exec .rdrom s = .next { s with events := s.events ||| 0x80#8 } ∧
    s.memWrite .cmd 0x10#8 = { s with events := s.events ||| 0x80#8 }

/-- R76, R77: a host write of a legal opcode while idle (for RDROM with ARM = 1) is accepted in that
step: SEQ at the start of the command, BUSY 1, CMD the opcode, all else as before. -/
def Obligations.LegalCommandWriteIsAccepted : Prop :=
  ∀ (i : Instr) (s : State) (rest : List Input),
    s.env.inputs = .access (cmdAccess i) :: rest → s.status.busy = false →
    (i = .rdrom → s.status.arm = true) →
    step s = .next { s.withInputs rest with
      seq := .run i .host { todo := [], got := [], next := .start }
      status := { s.status with busy := true }
      cmd := opcode i }

/-! ### Line and bit commands -/

/-- R106, R104, R107: RESET. -/
def Obligations.ResetDetectsPresence : Prop :=
  ∀ s : State, s.status.busy = false →
    exec .reset s = .next
      { s.ended 0x01#8 1 (resetTrace s.params (s.env.sampleAt 0))
          (if s.env.sampleAt 0 then 0x18#8 else 0x08#8) with
        status := { s.status with
          busy := false, pd := !s.env.sampleAt 0, arm := !s.env.sampleAt 0 } }

/-- R124, R120: WBIT writes one slot with DATA bit 0. -/
def Obligations.WbitWritesOneSlot : Prop :=
  ∀ s : State, s.status.busy = false →
    exec .wbit s = .next
      { s.ended 0x02#8 0 (writeTrace s.params (s.data.getLsbD 0)) 0x08#8 with
        status := { s.status with busy := false, arm := false } }

/-- R125, R121: RBIT reads one slot into DATA. -/
def Obligations.RbitReadsOneSlot : Prop :=
  ∀ s : State, s.status.busy = false →
    exec .rbit s = .next
      { s.ended 0x03#8 1 (readTrace s.params (s.env.sampleAt 0)) 0x08#8 with
        data := if s.env.sampleAt 0 then 0x01#8 else 0x00#8
        status := { s.status with busy := false, arm := false } }

/-- R126, R122: WBYTE writes the eight bits of DATA, LSB first. -/
def Obligations.WbyteWritesEightSlots : Prop :=
  ∀ s : State, s.status.busy = false →
    exec .wbyte s = .next
      { s.ended 0x04#8 0
          (writeTrace s.params (s.data.getLsbD 0) ++ writeTrace s.params (s.data.getLsbD 1) ++
            writeTrace s.params (s.data.getLsbD 2) ++ writeTrace s.params (s.data.getLsbD 3) ++
            writeTrace s.params (s.data.getLsbD 4) ++ writeTrace s.params (s.data.getLsbD 5) ++
            writeTrace s.params (s.data.getLsbD 6) ++ writeTrace s.params (s.data.getLsbD 7))
          0x08#8 with
        status := { s.status with busy := false, arm := false } }

/-- R127, R123: RBYTE reads eight slots into DATA, the first bit into bit 0. -/
def Obligations.RbyteReadsEightSlots : Prop :=
  ∀ s : State, s.status.busy = false →
    ∃ v : Byte, (∀ i < 8, v.getLsbD i = s.env.sampleAt i) ∧
      exec .rbyte s = .next
        { s.ended 0x05#8 8 (readsTrace s.params s.env 0 8) 0x08#8 with
          data := v
          status := { s.status with busy := false, arm := false } }

/-! ### CRC8 -/

/-- R143: CRCB updates CRC from CRC and DATA; the line and ARM are not touched. -/
def Obligations.CrcbUpdatesTheAccumulator : Prop :=
  ∀ s : State, s.status.busy = false →
    exec .crcb s = .next
      { s with
        cmd := 0x06#8
        crc := crc8Byte s.crc s.data
        status := { s.status with busy := false }
        events := s.events ||| 0x08#8
        seq := .idle }

/-- R144: a payload with its CRC8 appended is a valid identifier. -/
def Obligations.CrcRoundTrip : Prop :=
  ∀ buf : Ident, buf[7] = crc8 (buf.toList.take 7) → validRom buf = true

/-- R145: a buffer is valid exactly when the CRC8 of all eight bytes is 0x00, and
`crc8_byte(c, c) = 0x00` for every c. -/
def Obligations.CrcResidueOfAValidIdentifier : Prop :=
  (∀ buf : Ident, validRom buf = true ↔ crc8 buf.toList = 0x00#8) ∧
  ∀ c : Byte, crc8Byte c c = 0x00#8

/-- R146: linearity of `crc8_byte`, and every single-bit error in a valid identifier is detected. -/
def Obligations.CrcDetectsEverySingleBitError : Prop :=
  (∀ c d : Byte, crc8Byte c d = crc8Byte (c ^^^ d) 0x00#8) ∧
  (∀ c d : Byte, crc8Byte (c ^^^ d) 0x00#8 = crc8Byte c 0x00#8 ^^^ crc8Byte d 0x00#8) ∧
  ∀ (buf : Ident) (n : Nat), 1 ≤ n → n ≤ 64 → validRom buf = true →
    validRom (romSetBit buf n (!romBit buf n)) = false

/-- R142: CRC changes only by CRCB and by a host write to it (and by block reset, R44). -/
def Obligations.OnlyCrcbAndTheHostChangeCrc : Prop :=
  ∀ s t : State, step s = .next t → t.crc ≠ s.crc →
    (∃ rest, s.env.inputs = .command 0x06#8 :: rest) ∨
    (∃ v rest, s.env.inputs = .access (.write 0x06#6 1 v) :: rest) ∨
    (∃ w v rest, s.env.inputs = .host w :: rest ∧ decodeHostWord w = some (.write 0x06#6 1 v)) ∨
    (∃ rest, s.env.inputs = .rst :: rest) ∨
    ((s.env.inputs = [] ∨ ∃ rest, s.env.inputs = .seq :: rest) ∧
      ∃ o pos, s.seq = .run .crcb o pos)

/-! ### Read-ROM -/

/-- R182, R181, R58: RDROM with ARM = 1 sends 0x33 and reads 64 bits into ROMBUF, byte 0 first and
LSB first; CRCOK is its CRC check, ERR_CRC reports a mismatch. -/
def Obligations.RdromReadsTheIdentifier : Prop :=
  ∀ s : State, s.status.busy = false → s.status.arm = true →
    ∃ buf : Ident, ReadsIdent s.env 0 buf ∧
      exec .rdrom s = .next
        { s.ended 0x10#8 64 (writeByteTrace s.params 0x33#8 ++ readsTrace s.params s.env 0 64)
            (if validRom buf then 0x08#8 else 0x28#8) with
          rombuf := buf
          status := { s.status with busy := false, arm := false, crcok := validRom buf } }

/-! ### Search -/

/-- R159, exit path: SRCHN with LASTDEV = 1 writes only SOK and BUSY, raises only EV_DONE and does
nothing on the line. -/
def Obligations.SrchnAfterTheLastDeviceDoesNothing : Prop :=
  ∀ s : State, s.status.busy = false → s.status.lastdev = true →
    exec .srchn s = .next
      { s with
        cmd := 0x12#8
        status := { s.status with busy := false, sok := false }
        events := s.events ||| 0x08#8
        seq := .idle }

/-- R158, C4: a search pass that finds no presence clears LD, LASTDEV, SOK and CRCOK, leaves ROMBUF
as it was and raises no error. -/
def Obligations.SearchWithoutPresence : Prop :=
  ∀ (i : Instr) (s : State), i = .srchf ∨ (i = .srchn ∧ s.status.lastdev = false) →
    s.status.busy = false → s.env.sampleAt 0 = true →
    exec i s = .next
      { s.ended (opcode i) 1 (resetTrace s.params true) 0x08#8 with
        ld := 0x00#8
        status := { s.status with
          busy := false, pd := false, lastdev := false, crcok := false, arm := false
          sok := false } }

/-- R152 to R156 (C1, C2), R151, R159: a pass in which every position is answered. ROMBUF holds the
branches taken (below LD the old bit at a conflict, at LD 0, above it 1), LD is the last untaken
0-branch, LASTDEV says there is none, CRCOK is the check, ERR_CRC reports a mismatch. SRCHF starts
from LD = 0, SRCHN from the LD the pass before left. -/
def Obligations.SearchPassTakesTheBranches : Prop :=
  ∀ (i : Instr) (s : State) (ld : Nat),
    (i = .srchf ∧ ld = 0) ∨ (i = .srchn ∧ s.status.lastdev = false ∧ ld = s.ld.toNat) →
    s.status.busy = false → s.env.sampleAt 0 = false →
    (∀ n, 1 ≤ n → n ≤ 64 → ¬ (identityBit s.env 0 n = true ∧ complementBit s.env 0 n = true)) →
    ∃ (buf : Ident) (z : Nat),
      PassBits s.env 0 s.rombuf ld 64 buf ∧ LastZero s.env 0 s.rombuf ld 64 z ∧
      exec i s = .next
        { s.ended (opcode i) 129 (passTrace s.params s.env 0 s.rombuf ld 64)
            (if validRom buf then 0x08#8 else 0x28#8) with
          rombuf := buf
          lastzero := z
          ld := BitVec.ofNat 8 z
          status := { s.status with
            busy := false, pd := true, lastdev := decide (z = 0), crcok := validRom buf
            arm := false, sok := true } }

/-- R157: a pass whose first {1,1} is at position m clears LD, LASTDEV, SOK and CRCOK, raises
ERR_SRCH and leaves in ROMBUF the bits taken at positions 1..m-1 over the old ones. -/
def Obligations.SearchPassAbortsOnConflict : Prop :=
  ∀ (i : Instr) (s : State) (ld m : Nat),
    (i = .srchf ∧ ld = 0) ∨ (i = .srchn ∧ s.status.lastdev = false ∧ ld = s.ld.toNat) →
    s.status.busy = false → s.env.sampleAt 0 = false → 1 ≤ m → m ≤ 64 →
    (∀ n, 1 ≤ n → n < m → ¬ (identityBit s.env 0 n = true ∧ complementBit s.env 0 n = true)) →
    identityBit s.env 0 m = true → complementBit s.env 0 m = true →
    ∃ (buf : Ident) (z : Nat),
      PassBits s.env 0 s.rombuf ld (m - 1) buf ∧
      exec i s = .next
        { s.ended (opcode i) (2 * m + 1)
            (passTrace s.params s.env 0 s.rombuf ld (m - 1) ++ readTrace s.params true ++
              readTrace s.params true) 0x48#8 with
          rombuf := buf
          lastzero := z
          ld := 0x00#8
          status := { s.status with
            busy := false, pd := true, lastdev := false, crcok := false, arm := false
            sok := false } }

/-- R166: on the wired-AND bus SRCHF finds the slave greatest in line order, and SRCHN then the next
smaller one. -/
def Obligations.SearchFindsSlavesInLineOrder : Prop :=
  (∀ (slaves : List Ident) (s : State), slaves ≠ [] → s.status.busy = false →
    ∃ t, exec .srchf s = .next t ∧
      (BusAnswers s.env 0 slaves t.rombuf →
        (∀ x ∈ slaves, x ≠ t.rombuf → LineGreater t.rombuf x) ∧
        t.status.sok = true ∧ Enumerating slaves t)) ∧
  (∀ (slaves : List Ident) (s : State), Enumerating slaves s → s.status.lastdev = false →
    s.status.busy = false →
    ∃ t, exec .srchn s = .next t ∧
      (BusAnswers s.env 0 slaves t.rombuf →
        LineGreater s.rombuf t.rombuf ∧
        (∀ x ∈ slaves, LineGreater s.rombuf x → x = t.rombuf ∨ LineGreater t.rombuf x) ∧
        t.status.sok = true ∧ Enumerating slaves t))

/-! ### Enumeration -/

/-- R161, R163, R158: ENUM, and ENUMC with LASTDEV = 0, on an empty bus: one pass, no entry, no
error. -/
def Obligations.EnumerationOfAnEmptyBus : Prop :=
  ∀ (i : Instr) (s : State), i = .enum ∨ (i = .enumc ∧ s.status.lastdev = false) →
    s.status.busy = false → s.params.wf = true → s.env.sampleAt 0 = true →
    exec i s = .next
      { s.ended (opcode i) 1 (resetTrace s.params true) 0x08#8 with
        ld := 0x00#8
        ccount := 0x00#8
        passes := 1
        status := { s.status with
          busy := false, pd := false, lastdev := false, crcok := false, arm := false
          sok := false } }

/-- R162: "ENUMC with LASTDEV = 1 runs no pass and leaves CCOUNT = 0." -/
def Obligations.EnumcAfterTheLastDeviceRunsNoPass : Prop :=
  ∀ s : State, s.status.busy = false → s.status.lastdev = true →
    exec .enumc s = .next
      { s with
        cmd := 0x14#8
        ccount := 0x00#8
        passes := 0
        status := { s.status with busy := false }
        events := s.events ||| 0x08#8
        seq := .idle }

/-- R160 to R163, R165, R157, R105: ENUM and ENUMC end on every bus, after at most PASS_LIMIT passes
(none exactly when ENUMC finds LASTDEV = 1), with at most CACHE_DEPTH entries, all CRC-valid, the
other entries kept. They stop on the terminal condition, on capacity, on the pass limit or on an
aborted pass. ERR_CRC is raised exactly when a completed pass inserted nothing, ERR_SRCH exactly when
the last pass was aborted with a presence, and no other event but EV_DONE; an aborted pass leaves
LD = 0, LASTDEV = 0 and CRCOK = 0, and any pass leaves ARM = 0. The rest of the state is as it
was. -/
def Obligations.EnumerationEndsWithValidEntries : Prop :=
  ∀ (i : Instr) (s : State), i = .enum ∨ i = .enumc → Inv s → s.status.busy = false →
    ∃ t, exec i s = .next t ∧
      t = { s with
            cmd := opcode i, seq := .idle
            status := { t.status with
              busy := false, session := s.status.session, idv := s.status.idv }
            events := t.events, ld := t.ld, ccount := t.ccount, rombuf := t.rombuf
            lastzero := t.lastzero, cache := t.cache, passes := t.passes, drv := .released
            env := { s.env with nSamples := t.env.nSamples, trace := t.env.trace } } ∧
      (∃ ps, t.env.trace = s.env.trace ++ ps) ∧
      t.passes ≤ s.params.passLimit ∧
      (t.passes = 0 ↔ i = .enumc ∧ s.status.lastdev = true) ∧
      t.ccount.toNat ≤ t.completedPasses ∧ t.ccount.toNat ≤ s.params.cacheDepth ∧
      t.cache.length = s.params.cacheDepth ∧
      (∀ (e : Nat) (x : Ident), t.cache[e]? = some x →
        if e < t.ccount.toNat then validRom x = true else s.cache[e]? = some x) ∧
      (t.status.lastdev = true ∨ t.ccount.toNat = s.params.cacheDepth ∨
        t.passes = s.params.passLimit ∨ t.status.sok = false) ∧
      t.events = s.events ||| 0x08#8 |||
        (if t.ccount.toNat < t.completedPasses then 0x20#8 else 0x00#8) |||
        (if 1 ≤ t.passes ∧ t.status.sok = false ∧ t.status.pd = true then 0x40#8 else 0x00#8) ∧
      (1 ≤ t.passes → t.status.arm = false ∧
        (t.status.sok = false → t.ld = 0x00#8 ∧ t.status.lastdev = false ∧ t.status.crcok = false))

/-- R161, R163, R164, R160: ENUM on the wired-AND bus, for every CACHE_DEPTH and PASS_LIMIT, every
number of slaves and CRC-invalid ones among them: the passes find the slaves in line order, each
once; the CRC-valid ones are cached, an invalid one raises ERR_CRC; it stops when none is left
(LASTDEV = 1), on capacity or on the pass limit, with the enumeration held for ENUMC. The slaves are
listed greatest first, and in pass j the bus answers while the j-th of them is addressed. -/
def Obligations.EnumFindsEverySlave : Prop :=
  ∀ (slaves : List Ident) (s : State), slaves ≠ [] → slaves.Pairwise LineGreater → Inv s →
    s.status.busy = false →
    (∀ j (h : j < slaves.length), BusAnswers s.env (129 * j) slaves slaves[j]) →
    ∃ t k, exec .enum s = .next t ∧ FindsInOrder slaves slaves s t k

/-- R162, R163, R164: ENUMC with LASTDEV = 0 on the same bus goes on where the enumeration stands: it
keeps LD, LASTDEV and ROMBUF, and its passes find the slaves after `s.rombuf`, in line order. -/
def Obligations.EnumcFindsTheRemainingSlaves : Prop :=
  ∀ (before rest : List Ident) (s : State),
    let slaves := before ++ s.rombuf :: rest
    slaves.Pairwise LineGreater → Inv s → s.status.busy = false → Enumerating slaves s →
    s.status.lastdev = false →
    (∀ j (h : j < rest.length), BusAnswers s.env (129 * j) slaves rest[j]) →
    ∃ t k, exec .enumc s = .next t ∧ FindsInOrder slaves rest s t k

/-- R150: "Only the rules of this file and block reset write LD and LASTDEV." -/
def Obligations.OnlySearchCommandsWriteTheSearchState : Prop :=
  ∀ s t : State, Inv s → step s = .next t →
    (t.ld ≠ s.ld ∨ t.status.lastdev ≠ s.status.lastdev) →
    (∃ i rest, s.env.inputs = .command (opcode i) :: rest ∧
      (i = .srchf ∨ i = .srchn ∨ i = .enum ∨ i = .enumc)) ∨
    (∃ rest, s.env.inputs = .rst :: rest) ∨
    ((s.env.inputs = [] ∨ ∃ rest, s.env.inputs = .seq :: rest) ∧
      ∃ i o pos, s.seq = .run i o pos ∧
        (i = .srchf ∨ i = .srchn ∨ i = .enum ∨ i = .enumc))

/-! ### The presence & identity tracker -/

/-- R184, R185: a poll that finds no presence. -/
def Obligations.PollWithoutPresence : Prop :=
  ∀ s : State, s.status.busy = false → s.env.sampleAt 0 = true →
    exec .poll s = .next
      { s.ended 0x20#8 1 (resetTrace s.params true)
          (if s.status.session then 0x0A#8 else 0x08#8) with
        apt := 0
        status := { s.status with
          busy := false, pd := false, arm := false, session := false
          idv := s.status.idv && !(s.status.session && s.ctrl.getLsbD 1) } }

/-- R184, R186, R187, R188: a poll that finds a presence reads 64 bits into h.PBUF; it reports an
insertion once, adopts a CRC-valid identifier, reports it when it is new, and keeps ID and IDV on a
CRC mismatch. -/
def Obligations.PollWithPresence : Prop :=
  ∀ s : State, s.status.busy = false → s.env.sampleAt 0 = false →
    ∃ buf : Ident, ReadsIdent s.env 1 buf ∧
      exec .poll s = .next
        { s.ended 0x20#8 65
            (resetTrace s.params false ++ writeByteTrace s.params 0x33#8 ++
              readsTrace s.params s.env 1 64)
            (0x08#8 ||| (if s.status.session then 0x00#8 else 0x01#8) |||
              (if validRom buf then
                (if s.status.idv = true ∧ buf = s.idBuf then 0x00#8 else 0x04#8)
              else 0x20#8)) with
          apt := 0
          pbuf := buf
          idBuf := if validRom buf then buf else s.idBuf
          status := { s.status with
            busy := false, pd := true, arm := false, session := true
            idv := s.status.idv || validRom buf } }

/-- R189 (a), (c): from EVENTS = 0, a poll raises EV_PRESENT exactly when SESSION goes 0 → 1 and
EV_REMOVED exactly when it goes 1 → 0; ID changes only with EV_IDCHG, and then IDV = 1 and the new ID
is CRC-valid. -/
def Obligations.PollEventsAreEdges : Prop :=
  ∀ s : State, s.status.busy = false → s.events = 0x00#8 →
    ∃ t, exec .poll s = .next t ∧
      (t.events.getLsbD 0 = true ↔ s.status.session = false ∧ t.status.session = true) ∧
      (t.events.getLsbD 1 = true ↔ s.status.session = true ∧ t.status.session = false) ∧
      (t.idBuf ≠ s.idBuf →
        t.events.getLsbD 2 = true ∧ t.status.idv = true ∧ validRom t.idBuf = true) ∧
      (t.events.getLsbD 5 = true → t.idBuf = s.idBuf ∧ t.status.idv = s.status.idv)

/-- R180: "Only POLL writes SESSION, IDV and ID" (and block reset, R44). -/
def Obligations.OnlyPollWritesTheSession : Prop :=
  ∀ s t : State, step s = .next t →
    (t.status.session ≠ s.status.session ∨ t.status.idv ≠ s.status.idv ∨ t.idBuf ≠ s.idBuf) →
    (∃ rest, s.env.inputs = .command 0x20#8 :: rest) ∨
    (∃ rest, s.env.inputs = .rst :: rest) ∨
    ((s.env.inputs = [] ∨ ∃ rest, s.env.inputs = .seq :: rest) ∧
      ∃ o pos, s.seq = .run .poll o pos)

/-! ### Events and the interrupt output -/

/-- R205: IRQ is 1 exactly when some event is raised and enabled, and is 0 after reset. -/
def Obligations.IrqIsAnEnabledEvent : Prop :=
  (∀ s : State, s.irq = true ↔ ∃ i < 8, s.events.getLsbD i = true ∧ s.ie.getLsbD i = true) ∧
  State.reset.irq = false

/-- R201: raising an event sets its bit and no other; a host write-1-to-clear clears the bits written
1 and no other; a set after the clear leaves the bit 1. -/
def Obligations.RaisingAndClearingEvents : Prop :=
  ∀ (s : State) (e : Event) (v : Byte) (i : Nat), i < 8 →
    (s.raise e).events.getLsbD i = (s.events.getLsbD i || decide (i = e.code)) ∧
    (s.memWrite .events v).events.getLsbD i = (s.events.getLsbD i && !v.getLsbD i) ∧
    ((s.memWrite .events v).raise e).events.getLsbD e.code = true

/-- R201: "The bit stays 1 until a host write of 1 to it or block reset", whatever the step does. -/
def Obligations.EventsStayUntilCleared : Prop :=
  ∀ (s t : State) (i : Nat), step s = .next t →
    s.events.getLsbD i = true → t.events.getLsbD i = false →
    (∃ v rest, s.env.inputs = .access (.write 0x02#6 1 v) :: rest ∧ v.getLsbD i = true) ∨
    (∃ w v rest, s.env.inputs = .host w :: rest ∧
      decodeHostWord w = some (.write 0x02#6 1 v) ∧ v.getLsbD i = true) ∨
    ∃ rest, s.env.inputs = .rst :: rest

/-- R24: the layout of STATUS. -/
def Obligations.StatusByteLayout : Prop :=
  ∀ st : Status,
    st.byte.getLsbD 0 = st.busy ∧ st.byte.getLsbD 1 = st.pd ∧ st.byte.getLsbD 2 = st.session ∧
    st.byte.getLsbD 3 = st.idv ∧ st.byte.getLsbD 4 = st.lastdev ∧ st.byte.getLsbD 5 = st.crcok ∧
    st.byte.getLsbD 6 = st.arm ∧ st.byte.getLsbD 7 = st.sok

/-! ### The register window -/

/-- R51, R53: what a host write does, register by register, and nothing else: EVENTS is
write-1-to-clear, CTRL keeps two bits and an AUTOPOLL 0→1 restarts the autopoll timer, DATA and CRC
are written only while BUSY = 0, and the read-only and reserved addresses ignore it (R52). -/
def Obligations.HostWritesByRegister : Prop :=
  ∀ (s : State) (a : Addr) (v : Byte) (rest : List Input),
    s.env.inputs = .access (.write a 1 v) :: rest →
    (a = 0x02#6 → step s = .next { s.withInputs rest with events := s.events &&& ~~~v }) ∧
    (a = 0x03#6 → step s = .next { s.withInputs rest with ie := v }) ∧
    (a = 0x04#6 → step s = .next { s.withInputs rest with
      ctrl := v &&& 0x03#8
      apt := if s.ctrl.getLsbD 0 = false ∧ v.getLsbD 0 = true then 0 else s.apt }) ∧
    (a = 0x05#6 → step s = .next { s.withInputs rest with
      data := if s.status.busy then s.data else v }) ∧
    (a = 0x06#6 → step s = .next { s.withInputs rest with
      crc := if s.status.busy then s.crc else v }) ∧
    (a = 0x09#6 → step s = .next { s.withInputs rest with csel := v }) ∧
    (a = 0x01#6 ∨ a = 0x07#6 ∨ a = 0x08#6 ∨ 0x0A#6 ≤ a → step s = .next (s.withInputs rest))

/-- R51, R52, R54, R57: a host read returns the register's value and changes nothing but the record
of reads; while BUSY = 1 a read of DATA, CRC, LD, CCOUNT, ROMBUF or CENT returns a value under no
law, drawn afresh. -/
def Obligations.HostReadsChangeNothing : Prop :=
  ∀ (s : State) (a : Addr) (rest : List Input),
    s.env.inputs = .access (.read a 1) :: rest →
    (s.status.busy = false ∨ a.toNat < 0x05 ∨ (0x09 ≤ a.toNat ∧ a.toNat < 0x10) ∨
        (0x18 ≤ a.toNat ∧ a.toNat < 0x20) ∨ 0x28 ≤ a.toNat →
      step s = .next { s with env := { s.env with
        inputs := rest, reads := s.env.reads ++ [(a, s.regValue (addrReg a))] } }) ∧
    (s.status.busy = true → (0x05 ≤ a.toNat ∧ a.toNat < 0x09) ∨
        (0x10 ≤ a.toNat ∧ a.toNat < 0x18) ∨ (0x20 ≤ a.toNat ∧ a.toNat < 0x28) →
      step s = .next { s with env := { s.env with
        inputs := rest, nDraws := s.env.nDraws + 1
        reads := s.env.reads ++ [(a, Config.busyRead s.env.nDraws)] } })

/-- R23 to R34, R52, R74: which value each address of the window holds; CENT is the cache entry CSEL
selects, 0x00 when CSEL ≥ CACHE_DEPTH; reserved addresses read 0x00. -/
def Obligations.WindowHoldsTheRegisters : Prop :=
  ∀ s : State,
    s.regValue (addrReg 0x00#6) = s.cmd ∧ s.regValue (addrReg 0x01#6) = s.status.byte ∧
    s.regValue (addrReg 0x02#6) = s.events ∧ s.regValue (addrReg 0x03#6) = s.ie ∧
    s.regValue (addrReg 0x04#6) = s.ctrl ∧ s.regValue (addrReg 0x05#6) = s.data ∧
    s.regValue (addrReg 0x06#6) = s.crc ∧ s.regValue (addrReg 0x07#6) = s.ld ∧
    s.regValue (addrReg 0x08#6) = s.ccount ∧ s.regValue (addrReg 0x09#6) = s.csel ∧
    (∀ i : Fin 8,
      s.regValue (addrReg (BitVec.ofNat 6 (0x10 + i.val))) = s.rombuf[i] ∧
      s.regValue (addrReg (BitVec.ofNat 6 (0x18 + i.val))) = s.idBuf[i] ∧
      (∀ x, s.cache[s.csel.toNat]? = some x →
        s.regValue (addrReg (BitVec.ofNat 6 (0x20 + i.val))) = x[i]) ∧
      (Inv s → s.params.cacheDepth ≤ s.csel.toNat →
        s.regValue (addrReg (BitVec.ofNat 6 (0x20 + i.val))) = 0x00#8)) ∧
    ∀ a : Addr, (0x0A#6 ≤ a ∧ a ≤ 0x0F#6) ∨ 0x28#6 ≤ a → s.regValue (addrReg a) = 0x00#8

/-- R55: an access of another width is refused, whatever the address and the state. -/
def Obligations.OtherWidthsAreRefused : Prop :=
  ∀ (s : State) (a : Addr) (width : Nat) (v : Byte) (rest : List Input), width ≠ 1 →
    (s.env.inputs = .access (.read a width) :: rest → step s = .refused .accessWidth) ∧
    (s.env.inputs = .access (.write a width v) :: rest → step s = .refused .accessWidth)

/-! ### Time -/

/-- R241: the nominal line time of each command and pass at R7's durations, a sum of the trace's
labels. SRCHF and SRCHN: a complete pass, a pass aborted at position m, a pass without presence, and
SRCHN's exit path. ENUM and ENUMC: as many complete passes as they ran, after which an aborted one
without presence takes 960 µs (a conflict in it takes SRCHF's time). -/
def Obligations.NominalLineTimeOfEachCommand : Prop :=
  ∀ s : State, s.status.busy = false → s.params = Config.standard →
    TakesLineTime .reset s 960 ∧ TakesLineTime .wbit s 70 ∧ TakesLineTime .rbit s 70 ∧
    TakesLineTime .wbyte s 560 ∧ TakesLineTime .rbyte s 560 ∧ TakesLineTime .crcb s 0 ∧
    (s.status.arm = true → TakesLineTime .rdrom s 5040) ∧
    (s.env.sampleAt 0 = true → TakesLineTime .poll s 960) ∧
    (s.env.sampleAt 0 = false → TakesLineTime .poll s 6000) ∧
    (s.status.lastdev = true → TakesLineTime .srchn s 0 ∧ TakesLineTime .enumc s 0) ∧
    (∀ i, i = .srchf ∨ i = .enum ∨ ((i = .srchn ∨ i = .enumc) ∧ s.status.lastdev = false) →
      s.env.sampleAt 0 = true → TakesLineTime i s 960) ∧
    (∀ i, i = .srchf ∨ (i = .srchn ∧ s.status.lastdev = false) → s.env.sampleAt 0 = false →
      ((∀ n, 1 ≤ n → n ≤ 64 →
          ¬ (identityBit s.env 0 n = true ∧ complementBit s.env 0 n = true)) →
        TakesLineTime i s 14960) ∧
      ∀ m, 1 ≤ m → m ≤ 64 →
        (∀ n, 1 ≤ n → n < m →
          ¬ (identityBit s.env 0 n = true ∧ complementBit s.env 0 n = true)) →
        identityBit s.env 0 m = true → complementBit s.env 0 m = true →
        TakesLineTime i s (960 + 560 + (m - 1) * 210 + 140)) ∧
    (∀ i, i = .enum ∨ i = .enumc →
      ∃ t n, exec i s = .next t ∧
        traceTime t.env.trace = traceTime s.env.trace + 14960 * t.completedPasses + n ∧
        (t.status.sok = true ∨ t.passes = 0 → n = 0) ∧
        (t.status.sok = false → 1 ≤ t.passes → t.status.pd = false → n = 960) ∧
        (t.status.sok = false → 1 ≤ t.passes → t.status.pd = true →
          ∃ m, 1 ≤ m ∧ m ≤ 64 ∧ n = 960 + 560 + (m - 1) * 210 + 140))
end

