-- ==== Sys2Proof/Laws/State.lean ====
section
/-!
SUPPORT. What each elementary update of the state does to each field, true by rfl, so that no later
proof unfolds a record update. Line primitives change only the line drive and the environment; the
other updates only the fields named.
-/

namespace Sys2Proof.Machine

/-! ### The environment -/

@[simp] theorem Env.after_inputs (e : Env) (k : Nat) (ps : List Phase) :
    (e.after k ps).inputs = e.inputs := rfl
@[simp] theorem Env.after_line (e : Env) (k : Nat) (ps : List Phase) :
    (e.after k ps).line = e.line := rfl
@[simp] theorem Env.after_nSamples (e : Env) (k : Nat) (ps : List Phase) :
    (e.after k ps).nSamples = e.nSamples + k := rfl
@[simp] theorem Env.after_nDraws (e : Env) (k : Nat) (ps : List Phase) :
    (e.after k ps).nDraws = e.nDraws := rfl
@[simp] theorem Env.after_trace (e : Env) (k : Nat) (ps : List Phase) :
    (e.after k ps).trace = e.trace ++ ps := rfl
@[simp] theorem Env.after_reads (e : Env) (k : Nat) (ps : List Phase) :
    (e.after k ps).reads = e.reads := rfl

/-- Samples to come after k samples have been taken are the later ones. -/
@[simp] theorem Env.sampleAt_after (e : Env) (k j : Nat) (ps : List Phase) :
    (e.after k ps).sampleAt j = e.sampleAt (k + j) := by
  simp [Env.sampleAt, Nat.add_assoc]

/-- Two stretches one after the other are one. -/
@[simp] theorem Env.after_after (e : Env) (j k : Nat) (ps qs : List Phase) :
    (e.after j ps).after k qs = e.after (j + k) (ps ++ qs) := by
  simp [Env.after, Nat.add_assoc]

/-- Nothing sampled and nothing on the line: the environment as before. -/
@[simp] theorem Env.after_zero (e : Env) : e.after 0 [] = e := by simp [Env.after]

@[simp] theorem State.sample_bit (s : State) : s.sample.2 = s.env.sampleAt 0 := rfl

/-! ### DriveLow (R100) -/

@[simp] theorem State.driveLow_cmd (s : State) (t : Nat) : (s.driveLow t).cmd = s.cmd := rfl
@[simp] theorem State.driveLow_status (s : State) (t : Nat) :
    (s.driveLow t).status = s.status := rfl
@[simp] theorem State.driveLow_events (s : State) (t : Nat) :
    (s.driveLow t).events = s.events := rfl
@[simp] theorem State.driveLow_params (s : State) (t : Nat) : (s.driveLow t).params = s.params := rfl
@[simp] theorem State.driveLow_ie (s : State) (t : Nat) : (s.driveLow t).ie = s.ie := rfl
@[simp] theorem State.driveLow_ctrl (s : State) (t : Nat) : (s.driveLow t).ctrl = s.ctrl := rfl
@[simp] theorem State.driveLow_data (s : State) (t : Nat) : (s.driveLow t).data = s.data := rfl
@[simp] theorem State.driveLow_crc (s : State) (t : Nat) : (s.driveLow t).crc = s.crc := rfl
@[simp] theorem State.driveLow_ld (s : State) (t : Nat) : (s.driveLow t).ld = s.ld := rfl
@[simp] theorem State.driveLow_ccount (s : State) (t : Nat) :
    (s.driveLow t).ccount = s.ccount := rfl
@[simp] theorem State.driveLow_csel (s : State) (t : Nat) : (s.driveLow t).csel = s.csel := rfl
@[simp] theorem State.driveLow_rombuf (s : State) (t : Nat) :
    (s.driveLow t).rombuf = s.rombuf := rfl
@[simp] theorem State.driveLow_idBuf (s : State) (t : Nat) : (s.driveLow t).idBuf = s.idBuf := rfl
@[simp] theorem State.driveLow_drv (s : State) (t : Nat) : (s.driveLow t).drv = .low := rfl
@[simp] theorem State.driveLow_seq (s : State) (t : Nat) : (s.driveLow t).seq = s.seq := rfl
@[simp] theorem State.driveLow_lastzero (s : State) (t : Nat) :
    (s.driveLow t).lastzero = s.lastzero := rfl
@[simp] theorem State.driveLow_pbuf (s : State) (t : Nat) : (s.driveLow t).pbuf = s.pbuf := rfl
@[simp] theorem State.driveLow_cache (s : State) (t : Nat) : (s.driveLow t).cache = s.cache := rfl
@[simp] theorem State.driveLow_passes (s : State) (t : Nat) :
    (s.driveLow t).passes = s.passes := rfl
@[simp] theorem State.driveLow_apt (s : State) (t : Nat) : (s.driveLow t).apt = s.apt := rfl
@[simp] theorem State.driveLow_env (s : State) (t : Nat) :
    (s.driveLow t).env = s.env.after 0 [.low t] := rfl

/-! ### Release (R101) -/

@[simp] theorem State.release_cmd (s : State) (t : Nat) : (s.release t).cmd = s.cmd := rfl
@[simp] theorem State.release_status (s : State) (t : Nat) : (s.release t).status = s.status := rfl
@[simp] theorem State.release_events (s : State) (t : Nat) : (s.release t).events = s.events := rfl
@[simp] theorem State.release_params (s : State) (t : Nat) : (s.release t).params = s.params := rfl
@[simp] theorem State.release_ie (s : State) (t : Nat) : (s.release t).ie = s.ie := rfl
@[simp] theorem State.release_ctrl (s : State) (t : Nat) : (s.release t).ctrl = s.ctrl := rfl
@[simp] theorem State.release_data (s : State) (t : Nat) : (s.release t).data = s.data := rfl
@[simp] theorem State.release_crc (s : State) (t : Nat) : (s.release t).crc = s.crc := rfl
@[simp] theorem State.release_ld (s : State) (t : Nat) : (s.release t).ld = s.ld := rfl
@[simp] theorem State.release_ccount (s : State) (t : Nat) : (s.release t).ccount = s.ccount := rfl
@[simp] theorem State.release_csel (s : State) (t : Nat) : (s.release t).csel = s.csel := rfl
@[simp] theorem State.release_rombuf (s : State) (t : Nat) : (s.release t).rombuf = s.rombuf := rfl
@[simp] theorem State.release_idBuf (s : State) (t : Nat) : (s.release t).idBuf = s.idBuf := rfl
@[simp] theorem State.release_drv (s : State) (t : Nat) : (s.release t).drv = .released := rfl
@[simp] theorem State.release_seq (s : State) (t : Nat) : (s.release t).seq = s.seq := rfl
@[simp] theorem State.release_lastzero (s : State) (t : Nat) :
    (s.release t).lastzero = s.lastzero := rfl
@[simp] theorem State.release_pbuf (s : State) (t : Nat) : (s.release t).pbuf = s.pbuf := rfl
@[simp] theorem State.release_cache (s : State) (t : Nat) : (s.release t).cache = s.cache := rfl
@[simp] theorem State.release_passes (s : State) (t : Nat) : (s.release t).passes = s.passes := rfl
@[simp] theorem State.release_apt (s : State) (t : Nat) : (s.release t).apt = s.apt := rfl
@[simp] theorem State.release_env (s : State) (t : Nat) :
    (s.release t).env = s.env.after 0 [.rel t] := rfl

/-! ### Sample (R102) -/

@[simp] theorem State.sample_cmd (s : State) : (s.sample.1).cmd = s.cmd := rfl
@[simp] theorem State.sample_status (s : State) : (s.sample.1).status = s.status := rfl
@[simp] theorem State.sample_events (s : State) : (s.sample.1).events = s.events := rfl
@[simp] theorem State.sample_params (s : State) : (s.sample.1).params = s.params := rfl
@[simp] theorem State.sample_ie (s : State) : (s.sample.1).ie = s.ie := rfl
@[simp] theorem State.sample_ctrl (s : State) : (s.sample.1).ctrl = s.ctrl := rfl
@[simp] theorem State.sample_data (s : State) : (s.sample.1).data = s.data := rfl
@[simp] theorem State.sample_crc (s : State) : (s.sample.1).crc = s.crc := rfl
@[simp] theorem State.sample_ld (s : State) : (s.sample.1).ld = s.ld := rfl
@[simp] theorem State.sample_ccount (s : State) : (s.sample.1).ccount = s.ccount := rfl
@[simp] theorem State.sample_csel (s : State) : (s.sample.1).csel = s.csel := rfl
@[simp] theorem State.sample_rombuf (s : State) : (s.sample.1).rombuf = s.rombuf := rfl
@[simp] theorem State.sample_idBuf (s : State) : (s.sample.1).idBuf = s.idBuf := rfl
@[simp] theorem State.sample_drv (s : State) : (s.sample.1).drv = s.drv := rfl
@[simp] theorem State.sample_seq (s : State) : (s.sample.1).seq = s.seq := rfl
@[simp] theorem State.sample_lastzero (s : State) : (s.sample.1).lastzero = s.lastzero := rfl
@[simp] theorem State.sample_pbuf (s : State) : (s.sample.1).pbuf = s.pbuf := rfl
@[simp] theorem State.sample_cache (s : State) : (s.sample.1).cache = s.cache := rfl
@[simp] theorem State.sample_passes (s : State) : (s.sample.1).passes = s.passes := rfl
@[simp] theorem State.sample_apt (s : State) : (s.sample.1).apt = s.apt := rfl
@[simp] theorem State.sample_env (s : State) :
    (s.sample.1).env = s.env.after 1 [.smp (s.env.sampleAt 0)] := rfl

/-! ### raise EV (R201) -/

@[simp] theorem State.raise_cmd (s : State) (e : Event) : (s.raise e).cmd = s.cmd := rfl
@[simp] theorem State.raise_status (s : State) (e : Event) : (s.raise e).status = s.status := rfl
@[simp] theorem State.raise_events (s : State) (e : Event) :
    (s.raise e).events = s.events ||| e.mask := rfl
@[simp] theorem State.raise_params (s : State) (e : Event) : (s.raise e).params = s.params := rfl
@[simp] theorem State.raise_ie (s : State) (e : Event) : (s.raise e).ie = s.ie := rfl
@[simp] theorem State.raise_ctrl (s : State) (e : Event) : (s.raise e).ctrl = s.ctrl := rfl
@[simp] theorem State.raise_data (s : State) (e : Event) : (s.raise e).data = s.data := rfl
@[simp] theorem State.raise_crc (s : State) (e : Event) : (s.raise e).crc = s.crc := rfl
@[simp] theorem State.raise_ld (s : State) (e : Event) : (s.raise e).ld = s.ld := rfl
@[simp] theorem State.raise_ccount (s : State) (e : Event) : (s.raise e).ccount = s.ccount := rfl
@[simp] theorem State.raise_csel (s : State) (e : Event) : (s.raise e).csel = s.csel := rfl
@[simp] theorem State.raise_rombuf (s : State) (e : Event) : (s.raise e).rombuf = s.rombuf := rfl
@[simp] theorem State.raise_idBuf (s : State) (e : Event) : (s.raise e).idBuf = s.idBuf := rfl
@[simp] theorem State.raise_drv (s : State) (e : Event) : (s.raise e).drv = s.drv := rfl
@[simp] theorem State.raise_seq (s : State) (e : Event) : (s.raise e).seq = s.seq := rfl
@[simp] theorem State.raise_lastzero (s : State) (e : Event) :
    (s.raise e).lastzero = s.lastzero := rfl
@[simp] theorem State.raise_pbuf (s : State) (e : Event) : (s.raise e).pbuf = s.pbuf := rfl
@[simp] theorem State.raise_cache (s : State) (e : Event) : (s.raise e).cache = s.cache := rfl
@[simp] theorem State.raise_passes (s : State) (e : Event) : (s.raise e).passes = s.passes := rfl
@[simp] theorem State.raise_apt (s : State) (e : Event) : (s.raise e).apt = s.apt := rfl
@[simp] theorem State.raise_env (s : State) (e : Event) : (s.raise e).env = s.env := rfl

/-! ### ARM <- 0 (R105) -/

@[simp] theorem State.disarm_cmd (s : State) : (s.disarm).cmd = s.cmd := rfl
@[simp] theorem State.disarm_status (s : State) :
    (s.disarm).status = { s.status with arm := false } := rfl
@[simp] theorem State.disarm_events (s : State) : (s.disarm).events = s.events := rfl
@[simp] theorem State.disarm_params (s : State) : (s.disarm).params = s.params := rfl
@[simp] theorem State.disarm_ie (s : State) : (s.disarm).ie = s.ie := rfl
@[simp] theorem State.disarm_ctrl (s : State) : (s.disarm).ctrl = s.ctrl := rfl
@[simp] theorem State.disarm_data (s : State) : (s.disarm).data = s.data := rfl
@[simp] theorem State.disarm_crc (s : State) : (s.disarm).crc = s.crc := rfl
@[simp] theorem State.disarm_ld (s : State) : (s.disarm).ld = s.ld := rfl
@[simp] theorem State.disarm_ccount (s : State) : (s.disarm).ccount = s.ccount := rfl
@[simp] theorem State.disarm_csel (s : State) : (s.disarm).csel = s.csel := rfl
@[simp] theorem State.disarm_rombuf (s : State) : (s.disarm).rombuf = s.rombuf := rfl
@[simp] theorem State.disarm_idBuf (s : State) : (s.disarm).idBuf = s.idBuf := rfl
@[simp] theorem State.disarm_drv (s : State) : (s.disarm).drv = s.drv := rfl
@[simp] theorem State.disarm_seq (s : State) : (s.disarm).seq = s.seq := rfl
@[simp] theorem State.disarm_lastzero (s : State) : (s.disarm).lastzero = s.lastzero := rfl
@[simp] theorem State.disarm_pbuf (s : State) : (s.disarm).pbuf = s.pbuf := rfl
@[simp] theorem State.disarm_cache (s : State) : (s.disarm).cache = s.cache := rfl
@[simp] theorem State.disarm_passes (s : State) : (s.disarm).passes = s.passes := rfl
@[simp] theorem State.disarm_apt (s : State) : (s.disarm).apt = s.apt := rfl
@[simp] theorem State.disarm_env (s : State) : (s.disarm).env = s.env := rfl

/-! ### PD, ARM (R104) -/

@[simp] theorem State.setPresence_cmd (s : State) (b : Bool) : (s.setPresence b).cmd = s.cmd := rfl
@[simp] theorem State.setPresence_status (s : State) (b : Bool) :
    (s.setPresence b).status = { s.status with pd := !b, arm := false } := rfl
@[simp] theorem State.setPresence_events (s : State) (b : Bool) :
    (s.setPresence b).events = s.events := rfl
@[simp] theorem State.setPresence_params (s : State) (b : Bool) :
    (s.setPresence b).params = s.params := rfl
@[simp] theorem State.setPresence_ie (s : State) (b : Bool) : (s.setPresence b).ie = s.ie := rfl
@[simp] theorem State.setPresence_ctrl (s : State) (b : Bool) :
    (s.setPresence b).ctrl = s.ctrl := rfl
@[simp] theorem State.setPresence_data (s : State) (b : Bool) :
    (s.setPresence b).data = s.data := rfl
@[simp] theorem State.setPresence_crc (s : State) (b : Bool) : (s.setPresence b).crc = s.crc := rfl
@[simp] theorem State.setPresence_ld (s : State) (b : Bool) : (s.setPresence b).ld = s.ld := rfl
@[simp] theorem State.setPresence_ccount (s : State) (b : Bool) :
    (s.setPresence b).ccount = s.ccount := rfl
@[simp] theorem State.setPresence_csel (s : State) (b : Bool) :
    (s.setPresence b).csel = s.csel := rfl
@[simp] theorem State.setPresence_rombuf (s : State) (b : Bool) :
    (s.setPresence b).rombuf = s.rombuf := rfl
@[simp] theorem State.setPresence_idBuf (s : State) (b : Bool) :
    (s.setPresence b).idBuf = s.idBuf := rfl
@[simp] theorem State.setPresence_drv (s : State) (b : Bool) : (s.setPresence b).drv = s.drv := rfl
@[simp] theorem State.setPresence_seq (s : State) (b : Bool) : (s.setPresence b).seq = s.seq := rfl
@[simp] theorem State.setPresence_lastzero (s : State) (b : Bool) :
    (s.setPresence b).lastzero = s.lastzero := rfl
@[simp] theorem State.setPresence_pbuf (s : State) (b : Bool) :
    (s.setPresence b).pbuf = s.pbuf := rfl
@[simp] theorem State.setPresence_cache (s : State) (b : Bool) :
    (s.setPresence b).cache = s.cache := rfl
@[simp] theorem State.setPresence_passes (s : State) (b : Bool) :
    (s.setPresence b).passes = s.passes := rfl
@[simp] theorem State.setPresence_apt (s : State) (b : Bool) : (s.setPresence b).apt = s.apt := rfl
@[simp] theorem State.setPresence_env (s : State) (b : Bool) : (s.setPresence b).env = s.env := rfl

/-! ### RBIT result (R71) -/

@[simp] theorem State.putBit_cmd (s : State) (b : Bool) : (s.putBit b).cmd = s.cmd := rfl
@[simp] theorem State.putBit_status (s : State) (b : Bool) : (s.putBit b).status = s.status := rfl
@[simp] theorem State.putBit_events (s : State) (b : Bool) : (s.putBit b).events = s.events := rfl
@[simp] theorem State.putBit_params (s : State) (b : Bool) : (s.putBit b).params = s.params := rfl
@[simp] theorem State.putBit_ie (s : State) (b : Bool) : (s.putBit b).ie = s.ie := rfl
@[simp] theorem State.putBit_ctrl (s : State) (b : Bool) : (s.putBit b).ctrl = s.ctrl := rfl
@[simp] theorem State.putBit_data (s : State) (b : Bool) : (s.putBit b).data = bitAt 0 b := rfl
@[simp] theorem State.putBit_crc (s : State) (b : Bool) : (s.putBit b).crc = s.crc := rfl
@[simp] theorem State.putBit_ld (s : State) (b : Bool) : (s.putBit b).ld = s.ld := rfl
@[simp] theorem State.putBit_ccount (s : State) (b : Bool) : (s.putBit b).ccount = s.ccount := rfl
@[simp] theorem State.putBit_csel (s : State) (b : Bool) : (s.putBit b).csel = s.csel := rfl
@[simp] theorem State.putBit_rombuf (s : State) (b : Bool) : (s.putBit b).rombuf = s.rombuf := rfl
@[simp] theorem State.putBit_idBuf (s : State) (b : Bool) : (s.putBit b).idBuf = s.idBuf := rfl
@[simp] theorem State.putBit_drv (s : State) (b : Bool) : (s.putBit b).drv = s.drv := rfl
@[simp] theorem State.putBit_seq (s : State) (b : Bool) : (s.putBit b).seq = s.seq := rfl
@[simp] theorem State.putBit_lastzero (s : State) (b : Bool) :
    (s.putBit b).lastzero = s.lastzero := rfl
@[simp] theorem State.putBit_pbuf (s : State) (b : Bool) : (s.putBit b).pbuf = s.pbuf := rfl
@[simp] theorem State.putBit_cache (s : State) (b : Bool) : (s.putBit b).cache = s.cache := rfl
@[simp] theorem State.putBit_passes (s : State) (b : Bool) : (s.putBit b).passes = s.passes := rfl
@[simp] theorem State.putBit_apt (s : State) (b : Bool) : (s.putBit b).apt = s.apt := rfl
@[simp] theorem State.putBit_env (s : State) (b : Bool) : (s.putBit b).env = s.env := rfl

/-! ### RBYTE result (R71) -/

@[simp] theorem State.putByte_cmd (s : State) (v : Byte) : (s.putByte v).cmd = s.cmd := rfl
@[simp] theorem State.putByte_status (s : State) (v : Byte) : (s.putByte v).status = s.status := rfl
@[simp] theorem State.putByte_events (s : State) (v : Byte) : (s.putByte v).events = s.events := rfl
@[simp] theorem State.putByte_params (s : State) (v : Byte) : (s.putByte v).params = s.params := rfl
@[simp] theorem State.putByte_ie (s : State) (v : Byte) : (s.putByte v).ie = s.ie := rfl
@[simp] theorem State.putByte_ctrl (s : State) (v : Byte) : (s.putByte v).ctrl = s.ctrl := rfl
@[simp] theorem State.putByte_data (s : State) (v : Byte) : (s.putByte v).data = v := rfl
@[simp] theorem State.putByte_crc (s : State) (v : Byte) : (s.putByte v).crc = s.crc := rfl
@[simp] theorem State.putByte_ld (s : State) (v : Byte) : (s.putByte v).ld = s.ld := rfl
@[simp] theorem State.putByte_ccount (s : State) (v : Byte) : (s.putByte v).ccount = s.ccount := rfl
@[simp] theorem State.putByte_csel (s : State) (v : Byte) : (s.putByte v).csel = s.csel := rfl
@[simp] theorem State.putByte_rombuf (s : State) (v : Byte) : (s.putByte v).rombuf = s.rombuf := rfl
@[simp] theorem State.putByte_idBuf (s : State) (v : Byte) : (s.putByte v).idBuf = s.idBuf := rfl
@[simp] theorem State.putByte_drv (s : State) (v : Byte) : (s.putByte v).drv = s.drv := rfl
@[simp] theorem State.putByte_seq (s : State) (v : Byte) : (s.putByte v).seq = s.seq := rfl
@[simp] theorem State.putByte_lastzero (s : State) (v : Byte) :
    (s.putByte v).lastzero = s.lastzero := rfl
@[simp] theorem State.putByte_pbuf (s : State) (v : Byte) : (s.putByte v).pbuf = s.pbuf := rfl
@[simp] theorem State.putByte_cache (s : State) (v : Byte) : (s.putByte v).cache = s.cache := rfl
@[simp] theorem State.putByte_passes (s : State) (v : Byte) : (s.putByte v).passes = s.passes := rfl
@[simp] theorem State.putByte_apt (s : State) (v : Byte) : (s.putByte v).apt = s.apt := rfl
@[simp] theorem State.putByte_env (s : State) (v : Byte) : (s.putByte v).env = s.env := rfl

/-! ### SOK <- 0 (R152) -/

@[simp] theorem State.clearSok_cmd (s : State) : (s.clearSok).cmd = s.cmd := rfl
@[simp] theorem State.clearSok_status (s : State) :
    (s.clearSok).status = { s.status with sok := false } := rfl
@[simp] theorem State.clearSok_events (s : State) : (s.clearSok).events = s.events := rfl
@[simp] theorem State.clearSok_params (s : State) : (s.clearSok).params = s.params := rfl
@[simp] theorem State.clearSok_ie (s : State) : (s.clearSok).ie = s.ie := rfl
@[simp] theorem State.clearSok_ctrl (s : State) : (s.clearSok).ctrl = s.ctrl := rfl
@[simp] theorem State.clearSok_data (s : State) : (s.clearSok).data = s.data := rfl
@[simp] theorem State.clearSok_crc (s : State) : (s.clearSok).crc = s.crc := rfl
@[simp] theorem State.clearSok_ld (s : State) : (s.clearSok).ld = s.ld := rfl
@[simp] theorem State.clearSok_ccount (s : State) : (s.clearSok).ccount = s.ccount := rfl
@[simp] theorem State.clearSok_csel (s : State) : (s.clearSok).csel = s.csel := rfl
@[simp] theorem State.clearSok_rombuf (s : State) : (s.clearSok).rombuf = s.rombuf := rfl
@[simp] theorem State.clearSok_idBuf (s : State) : (s.clearSok).idBuf = s.idBuf := rfl
@[simp] theorem State.clearSok_drv (s : State) : (s.clearSok).drv = s.drv := rfl
@[simp] theorem State.clearSok_seq (s : State) : (s.clearSok).seq = s.seq := rfl
@[simp] theorem State.clearSok_lastzero (s : State) : (s.clearSok).lastzero = s.lastzero := rfl
@[simp] theorem State.clearSok_pbuf (s : State) : (s.clearSok).pbuf = s.pbuf := rfl
@[simp] theorem State.clearSok_cache (s : State) : (s.clearSok).cache = s.cache := rfl
@[simp] theorem State.clearSok_passes (s : State) : (s.clearSok).passes = s.passes := rfl
@[simp] theorem State.clearSok_apt (s : State) : (s.clearSok).apt = s.apt := rfl
@[simp] theorem State.clearSok_env (s : State) : (s.clearSok).env = s.env := rfl

/-! ### a new enumeration (R151) -/

@[simp] theorem State.clearSearch_cmd (s : State) : (s.clearSearch).cmd = s.cmd := rfl
@[simp] theorem State.clearSearch_status (s : State) :
    (s.clearSearch).status = { s.status with lastdev := false } := rfl
@[simp] theorem State.clearSearch_events (s : State) : (s.clearSearch).events = s.events := rfl
@[simp] theorem State.clearSearch_params (s : State) : (s.clearSearch).params = s.params := rfl
@[simp] theorem State.clearSearch_ie (s : State) : (s.clearSearch).ie = s.ie := rfl
@[simp] theorem State.clearSearch_ctrl (s : State) : (s.clearSearch).ctrl = s.ctrl := rfl
@[simp] theorem State.clearSearch_data (s : State) : (s.clearSearch).data = s.data := rfl
@[simp] theorem State.clearSearch_crc (s : State) : (s.clearSearch).crc = s.crc := rfl
@[simp] theorem State.clearSearch_ld (s : State) : (s.clearSearch).ld = 0x00#8 := rfl
@[simp] theorem State.clearSearch_ccount (s : State) : (s.clearSearch).ccount = s.ccount := rfl
@[simp] theorem State.clearSearch_csel (s : State) : (s.clearSearch).csel = s.csel := rfl
@[simp] theorem State.clearSearch_rombuf (s : State) : (s.clearSearch).rombuf = s.rombuf := rfl
@[simp] theorem State.clearSearch_idBuf (s : State) : (s.clearSearch).idBuf = s.idBuf := rfl
@[simp] theorem State.clearSearch_drv (s : State) : (s.clearSearch).drv = s.drv := rfl
@[simp] theorem State.clearSearch_seq (s : State) : (s.clearSearch).seq = s.seq := rfl
@[simp] theorem State.clearSearch_lastzero (s : State) :
    (s.clearSearch).lastzero = s.lastzero := rfl
@[simp] theorem State.clearSearch_pbuf (s : State) : (s.clearSearch).pbuf = s.pbuf := rfl
@[simp] theorem State.clearSearch_cache (s : State) : (s.clearSearch).cache = s.cache := rfl
@[simp] theorem State.clearSearch_passes (s : State) : (s.clearSearch).passes = s.passes := rfl
@[simp] theorem State.clearSearch_apt (s : State) : (s.clearSearch).apt = s.apt := rfl
@[simp] theorem State.clearSearch_env (s : State) : (s.clearSearch).env = s.env := rfl

/-! ### ROMBUF bit (R155) -/

@[simp] theorem State.recordBit_cmd (s : State) (n : Nat) (d : Bool) :
    (s.recordBit n d).cmd = s.cmd := rfl
@[simp] theorem State.recordBit_status (s : State) (n : Nat) (d : Bool) :
    (s.recordBit n d).status = s.status := rfl
@[simp] theorem State.recordBit_events (s : State) (n : Nat) (d : Bool) :
    (s.recordBit n d).events = s.events := rfl
@[simp] theorem State.recordBit_params (s : State) (n : Nat) (d : Bool) :
    (s.recordBit n d).params = s.params := rfl
@[simp] theorem State.recordBit_ie (s : State) (n : Nat) (d : Bool) :
    (s.recordBit n d).ie = s.ie := rfl
@[simp] theorem State.recordBit_ctrl (s : State) (n : Nat) (d : Bool) :
    (s.recordBit n d).ctrl = s.ctrl := rfl
@[simp] theorem State.recordBit_data (s : State) (n : Nat) (d : Bool) :
    (s.recordBit n d).data = s.data := rfl
@[simp] theorem State.recordBit_crc (s : State) (n : Nat) (d : Bool) :
    (s.recordBit n d).crc = s.crc := rfl
@[simp] theorem State.recordBit_ld (s : State) (n : Nat) (d : Bool) :
    (s.recordBit n d).ld = s.ld := rfl
@[simp] theorem State.recordBit_ccount (s : State) (n : Nat) (d : Bool) :
    (s.recordBit n d).ccount = s.ccount := rfl
@[simp] theorem State.recordBit_csel (s : State) (n : Nat) (d : Bool) :
    (s.recordBit n d).csel = s.csel := rfl
@[simp] theorem State.recordBit_rombuf (s : State) (n : Nat) (d : Bool) :
    (s.recordBit n d).rombuf = romSetBit s.rombuf n d := rfl
@[simp] theorem State.recordBit_idBuf (s : State) (n : Nat) (d : Bool) :
    (s.recordBit n d).idBuf = s.idBuf := rfl
@[simp] theorem State.recordBit_drv (s : State) (n : Nat) (d : Bool) :
    (s.recordBit n d).drv = s.drv := rfl
@[simp] theorem State.recordBit_seq (s : State) (n : Nat) (d : Bool) :
    (s.recordBit n d).seq = s.seq := rfl
@[simp] theorem State.recordBit_lastzero (s : State) (n : Nat) (d : Bool) :
    (s.recordBit n d).lastzero = s.lastzero := rfl
@[simp] theorem State.recordBit_pbuf (s : State) (n : Nat) (d : Bool) :
    (s.recordBit n d).pbuf = s.pbuf := rfl
@[simp] theorem State.recordBit_cache (s : State) (n : Nat) (d : Bool) :
    (s.recordBit n d).cache = s.cache := rfl
@[simp] theorem State.recordBit_passes (s : State) (n : Nat) (d : Bool) :
    (s.recordBit n d).passes = s.passes := rfl
@[simp] theorem State.recordBit_apt (s : State) (n : Nat) (d : Bool) :
    (s.recordBit n d).apt = s.apt := rfl
@[simp] theorem State.recordBit_env (s : State) (n : Nat) (d : Bool) :
    (s.recordBit n d).env = s.env := rfl

/-! ### CCOUNT <- 0 (R161) -/

@[simp] theorem State.emptyCache_cmd (s : State) : (s.emptyCache).cmd = s.cmd := rfl
@[simp] theorem State.emptyCache_status (s : State) : (s.emptyCache).status = s.status := rfl
@[simp] theorem State.emptyCache_events (s : State) : (s.emptyCache).events = s.events := rfl
@[simp] theorem State.emptyCache_params (s : State) : (s.emptyCache).params = s.params := rfl
@[simp] theorem State.emptyCache_ie (s : State) : (s.emptyCache).ie = s.ie := rfl
@[simp] theorem State.emptyCache_ctrl (s : State) : (s.emptyCache).ctrl = s.ctrl := rfl
@[simp] theorem State.emptyCache_data (s : State) : (s.emptyCache).data = s.data := rfl
@[simp] theorem State.emptyCache_crc (s : State) : (s.emptyCache).crc = s.crc := rfl
@[simp] theorem State.emptyCache_ld (s : State) : (s.emptyCache).ld = s.ld := rfl
@[simp] theorem State.emptyCache_ccount (s : State) : (s.emptyCache).ccount = 0x00#8 := rfl
@[simp] theorem State.emptyCache_csel (s : State) : (s.emptyCache).csel = s.csel := rfl
@[simp] theorem State.emptyCache_rombuf (s : State) : (s.emptyCache).rombuf = s.rombuf := rfl
@[simp] theorem State.emptyCache_idBuf (s : State) : (s.emptyCache).idBuf = s.idBuf := rfl
@[simp] theorem State.emptyCache_drv (s : State) : (s.emptyCache).drv = s.drv := rfl
@[simp] theorem State.emptyCache_seq (s : State) : (s.emptyCache).seq = s.seq := rfl
@[simp] theorem State.emptyCache_lastzero (s : State) : (s.emptyCache).lastzero = s.lastzero := rfl
@[simp] theorem State.emptyCache_pbuf (s : State) : (s.emptyCache).pbuf = s.pbuf := rfl
@[simp] theorem State.emptyCache_cache (s : State) : (s.emptyCache).cache = s.cache := rfl
@[simp] theorem State.emptyCache_passes (s : State) : (s.emptyCache).passes = s.passes := rfl
@[simp] theorem State.emptyCache_apt (s : State) : (s.emptyCache).apt = s.apt := rfl
@[simp] theorem State.emptyCache_env (s : State) : (s.emptyCache).env = s.env := rfl

/-! ### a pass aborts (R157, R158) -/

@[simp] theorem State.abortPass_cmd (s : State) : (s.abortPass).cmd = s.cmd := rfl
@[simp] theorem State.abortPass_status (s : State) :
    (s.abortPass).status = { s.status with lastdev := false, sok := false, crcok := false } := rfl
@[simp] theorem State.abortPass_events (s : State) : (s.abortPass).events = s.events := rfl
@[simp] theorem State.abortPass_params (s : State) : (s.abortPass).params = s.params := rfl
@[simp] theorem State.abortPass_ie (s : State) : (s.abortPass).ie = s.ie := rfl
@[simp] theorem State.abortPass_ctrl (s : State) : (s.abortPass).ctrl = s.ctrl := rfl
@[simp] theorem State.abortPass_data (s : State) : (s.abortPass).data = s.data := rfl
@[simp] theorem State.abortPass_crc (s : State) : (s.abortPass).crc = s.crc := rfl
@[simp] theorem State.abortPass_ld (s : State) : (s.abortPass).ld = 0x00#8 := rfl
@[simp] theorem State.abortPass_ccount (s : State) : (s.abortPass).ccount = s.ccount := rfl
@[simp] theorem State.abortPass_csel (s : State) : (s.abortPass).csel = s.csel := rfl
@[simp] theorem State.abortPass_rombuf (s : State) : (s.abortPass).rombuf = s.rombuf := rfl
@[simp] theorem State.abortPass_idBuf (s : State) : (s.abortPass).idBuf = s.idBuf := rfl
@[simp] theorem State.abortPass_drv (s : State) : (s.abortPass).drv = s.drv := rfl
@[simp] theorem State.abortPass_seq (s : State) : (s.abortPass).seq = s.seq := rfl
@[simp] theorem State.abortPass_lastzero (s : State) : (s.abortPass).lastzero = s.lastzero := rfl
@[simp] theorem State.abortPass_pbuf (s : State) : (s.abortPass).pbuf = s.pbuf := rfl
@[simp] theorem State.abortPass_cache (s : State) : (s.abortPass).cache = s.cache := rfl
@[simp] theorem State.abortPass_passes (s : State) : (s.abortPass).passes = s.passes := rfl
@[simp] theorem State.abortPass_apt (s : State) : (s.abortPass).apt = s.apt := rfl
@[simp] theorem State.abortPass_env (s : State) : (s.abortPass).env = s.env := rfl

/-! ### a pass completes (R156) -/

@[simp] theorem State.completePass_cmd (s : State) : (s.completePass).cmd = s.cmd := rfl
@[simp] theorem State.completePass_status (s : State) :
    (s.completePass).status =
      { s.status with lastdev := s.lastzero == 0, sok := true, crcok := validRom s.rombuf } := rfl
@[simp] theorem State.completePass_events (s : State) : (s.completePass).events = s.events := rfl
@[simp] theorem State.completePass_params (s : State) : (s.completePass).params = s.params := rfl
@[simp] theorem State.completePass_ie (s : State) : (s.completePass).ie = s.ie := rfl
@[simp] theorem State.completePass_ctrl (s : State) : (s.completePass).ctrl = s.ctrl := rfl
@[simp] theorem State.completePass_data (s : State) : (s.completePass).data = s.data := rfl
@[simp] theorem State.completePass_crc (s : State) : (s.completePass).crc = s.crc := rfl
@[simp] theorem State.completePass_ld (s : State) :
    (s.completePass).ld = BitVec.ofNat 8 s.lastzero := rfl
@[simp] theorem State.completePass_ccount (s : State) : (s.completePass).ccount = s.ccount := rfl
@[simp] theorem State.completePass_csel (s : State) : (s.completePass).csel = s.csel := rfl
@[simp] theorem State.completePass_rombuf (s : State) : (s.completePass).rombuf = s.rombuf := rfl
@[simp] theorem State.completePass_idBuf (s : State) : (s.completePass).idBuf = s.idBuf := rfl
@[simp] theorem State.completePass_drv (s : State) : (s.completePass).drv = s.drv := rfl
@[simp] theorem State.completePass_seq (s : State) : (s.completePass).seq = s.seq := rfl
@[simp] theorem State.completePass_lastzero (s : State) :
    (s.completePass).lastzero = s.lastzero := rfl
@[simp] theorem State.completePass_pbuf (s : State) : (s.completePass).pbuf = s.pbuf := rfl
@[simp] theorem State.completePass_cache (s : State) : (s.completePass).cache = s.cache := rfl
@[simp] theorem State.completePass_passes (s : State) : (s.completePass).passes = s.passes := rfl
@[simp] theorem State.completePass_apt (s : State) : (s.completePass).apt = s.apt := rfl
@[simp] theorem State.completePass_env (s : State) : (s.completePass).env = s.env := rfl

/-! ### taking an input -/

@[simp] theorem State.withInputs_cmd (s : State) (l : List Input) :
    (s.withInputs l).cmd = s.cmd := rfl
@[simp] theorem State.withInputs_status (s : State) (l : List Input) :
    (s.withInputs l).status = s.status := rfl
@[simp] theorem State.withInputs_events (s : State) (l : List Input) :
    (s.withInputs l).events = s.events := rfl
@[simp] theorem State.withInputs_params (s : State) (l : List Input) :
    (s.withInputs l).params = s.params := rfl
@[simp] theorem State.withInputs_ie (s : State) (l : List Input) : (s.withInputs l).ie = s.ie := rfl
@[simp] theorem State.withInputs_ctrl (s : State) (l : List Input) :
    (s.withInputs l).ctrl = s.ctrl := rfl
@[simp] theorem State.withInputs_data (s : State) (l : List Input) :
    (s.withInputs l).data = s.data := rfl
@[simp] theorem State.withInputs_crc (s : State) (l : List Input) :
    (s.withInputs l).crc = s.crc := rfl
@[simp] theorem State.withInputs_ld (s : State) (l : List Input) : (s.withInputs l).ld = s.ld := rfl
@[simp] theorem State.withInputs_ccount (s : State) (l : List Input) :
    (s.withInputs l).ccount = s.ccount := rfl
@[simp] theorem State.withInputs_csel (s : State) (l : List Input) :
    (s.withInputs l).csel = s.csel := rfl
@[simp] theorem State.withInputs_rombuf (s : State) (l : List Input) :
    (s.withInputs l).rombuf = s.rombuf := rfl
@[simp] theorem State.withInputs_idBuf (s : State) (l : List Input) :
    (s.withInputs l).idBuf = s.idBuf := rfl
@[simp] theorem State.withInputs_drv (s : State) (l : List Input) :
    (s.withInputs l).drv = s.drv := rfl
@[simp] theorem State.withInputs_seq (s : State) (l : List Input) :
    (s.withInputs l).seq = s.seq := rfl
@[simp] theorem State.withInputs_lastzero (s : State) (l : List Input) :
    (s.withInputs l).lastzero = s.lastzero := rfl
@[simp] theorem State.withInputs_pbuf (s : State) (l : List Input) :
    (s.withInputs l).pbuf = s.pbuf := rfl
@[simp] theorem State.withInputs_cache (s : State) (l : List Input) :
    (s.withInputs l).cache = s.cache := rfl
@[simp] theorem State.withInputs_passes (s : State) (l : List Input) :
    (s.withInputs l).passes = s.passes := rfl
@[simp] theorem State.withInputs_apt (s : State) (l : List Input) :
    (s.withInputs l).apt = s.apt := rfl
@[simp] theorem State.withInputs_env (s : State) (l : List Input) :
    (s.withInputs l).env = { s.env with inputs := l } := rfl

end Sys2Proof.Machine
end

