-- ==== Sys2Proof/Laws/Command.lean ====
section
/-!
SUPPORT. What the dispatcher does with a command (spec/30_encoding.md R76 to R80), once for all
twelve, and the decoder's two directions (R75).
-/

namespace Sys2Proof.Machine

/-- The pseudocode of each command, as its meaning runs it (R75). -/
def commandBody : Instr → State → State
  | .reset => resetBody
  | .wbit => wbitBody
  | .rbit => rbitBody
  | .wbyte => wbyteBody
  | .rbyte => rbyteBody
  | .crcb => crcbBody
  | .rdrom => rdromBody
  | .srchf => srchfBody
  | .srchn => srchnBody
  | .enum => enumBody
  | .enumc => enumcBody
  | .poll => pollBody

/-- Every command is the dispatcher's decision and its pseudocode (R76, R80). -/
theorem exec_eq_hostCommand (i : Instr) (s : State) :
    exec i s = .next (hostCommand i (commandBody i) s) := by cases i <;> rfl

/-- No command ever stops: `exec` always answers a next state. -/
theorem exec_completes (i : Instr) (s : State) : ∃ t, exec i s = .next t :=
  ⟨_, exec_eq_hostCommand i s⟩

/-- Rejected while BUSY = 1 (R78). -/
theorem hostCommand_busy (i : Instr) (body : State → State) (s : State)
    (h : s.status.busy = true) : hostCommand i body s = s.raise .errCmd := by
  simp [hostCommand, h, State.reject]

/-- Accepted when idle (R77), and RDROM only with ARM = 1 (R182). -/
theorem hostCommand_idle (i : Instr) (body : State → State) (s : State)
    (h : s.status.busy = false) (ha : i = .rdrom → s.status.arm = true) :
    hostCommand i body s = State.finish i .host (body (s.accept i .host)) := by
  have hm : mayAccept i s = true := by
    by_cases hi : i = .rdrom
    · simp [mayAccept, ha hi]
    · simp [mayAccept, hi]
  simp [hostCommand, h, hm]

/-- A host command's end raises EV_DONE (R80). -/
theorem State.finish_host (op : Instr) (s : State) :
    s.finish op .host =
      { s with
        seq := .idle
        status := { s.status with busy := false }
        apt := if op = .poll then 0 else s.apt
        events := s.events ||| 0x08#8 } := rfl

/-- An autopoll's end raises nothing (R80, R190). -/
theorem State.finish_auto (op : Instr) (s : State) :
    s.finish op .auto =
      { s with
        seq := .idle
        status := { s.status with busy := false }
        apt := if op = .poll then 0 else s.apt } := rfl

/-- Acceptance of a host command (R77). -/
theorem State.accept_host (op : Instr) (s : State) :
    s.accept op .host =
      { s with
        seq := .run op .host { todo := [], got := [], next := .start }
        status := { s.status with busy := true }
        cmd := opcode op } := rfl

/-- An opcode decodes to its command (R75). -/
@[simp] theorem decodeOpcode_opcode (i : Instr) : decodeOpcode (opcode i) = .ok i := by
  cases i <;> rfl

/-- Different commands have different opcodes (R75). -/
theorem opcode_injective {i j : Instr} (h : opcode i = opcode j) : i = j := by
  have hi := decodeOpcode_opcode i
  rw [h, decodeOpcode_opcode] at hi
  exact (Except.ok.inj hi).symm

end Sys2Proof.Machine
end

