-- ==== Sys2Proof/Laws/Line.lean ====
section
/-!
SUPPORT. One lemma for each routine that works on the line, saying everything it does: the line is
left released, the trace grows by the routine's phases, the samples it took are used up, and nothing
else changes (spec/40_line_reset.md, spec/41_bit_byte.md). Then the same routines performed
primitive by primitive by the sequencer.
-/

namespace Sys2Proof.Machine

/-- The state after a stretch of line activity: k samples taken, the phases ps on the trace, the line
released. -/
abbrev State.afterLine (k : Nat) (ps : List Phase) (s : State) : State :=
  { s with drv := .released, env := s.env.after k ps }

@[simp] theorem State.afterLine_afterLine (s : State) (j k : Nat) (ps qs : List Phase) :
    (s.afterLine j ps).afterLine k qs = s.afterLine (j + k) (ps ++ qs) := by
  simp [State.afterLine]

/-- A write slot (R120, R129). -/
theorem State.writeBit_eq (s : State) (b : Bool) :
    s.writeBit b = s.afterLine 0 (writeTrace s.params b) := by
  cases b <;>
    simp [State.writeBit, writeTrace, State.driveLow, State.release, State.log, Env.after]

/-- A read slot (R121, R129). -/
theorem State.readBit_eq (s : State) :
    s.readBit = (s.afterLine 1 (readTrace s.params (s.env.sampleAt 0)), s.env.sampleAt 0) := by
  simp [State.readBit, readTrace, State.driveLow, State.release, State.sample, State.log, Env.after,
    Env.sampleAt]

/-- The reset sequence (R104, R107). -/
theorem State.resetPresence_eq (s : State) :
    s.resetPresence =
      { s.afterLine 1 (resetTrace s.params (s.env.sampleAt 0)) with
        status := { s.status with pd := !s.env.sampleAt 0, arm := false } } := by
  simp [State.resetPresence, resetTrace, State.setPresence, State.driveLow, State.release,
    State.sample, State.log, Env.after, Env.sampleAt]

/-- Write slots one after the other. -/
theorem foldl_writeBit_eq (bits : List Nat) (f : Nat → Bool) (s : State) (h : s.drv = .released) :
    bits.foldl (fun s i => s.writeBit (f i)) s =
      s.afterLine 0 (bits.flatMap (fun i => writeTrace s.params (f i))) := by
  induction bits generalizing s with
  | nil => cases s; simp_all [State.afterLine]
  | cons b bits ih =>
    rw [List.foldl_cons, ih _ (by simp [State.writeBit_eq]), State.writeBit_eq]
    simp

/-- Eight write slots, least-significant bit first (R122). -/
theorem State.writeByte_eq (s : State) (v : Byte) :
    s.writeByte v = s.afterLine 0 (writeByteTrace s.params v) := by
  have h := foldl_writeBit_eq [1, 2, 3, 4, 5, 6, 7] (fun i => v.getLsbD i) (s.writeBit (v.getLsbD 0))
    (by simp [State.writeBit_eq])
  have hr : List.range 8 = 0 :: [1, 2, 3, 4, 5, 6, 7] := rfl
  simp only [State.writeByte, writeByteTrace, hr, List.foldl_cons, List.flatMap_cons, h]
  simp [State.writeBit_eq]

/-- The bits of a byte after one of them is set. -/
theorem getLsbD_setBit (v : Byte) (i j : Nat) (b : Bool) (hi : i < 8) :
    (setBit v i b).getLsbD j = if j = i then b else v.getLsbD j := by
  by_cases hj : j < 8
  · have hm : (1#8 <<< i).getLsbD j = decide (j = i) := by
      rcases Nat.lt_trichotomy j i with h | h | h
      · simp [h, hj]; omega
      · simp [h, hi]
      · have h1 : ¬ j < i := by omega
        have h2 : ¬ (j - i = 0) := by omega
        have h3 : ¬ (j = i) := by omega
        simp [hj, h1, h2, h3]
    cases b <;>
      simp only [setBit, bitAt, BitVec.getLsbD_or, BitVec.getLsbD_and, BitVec.getLsbD_not, hm, hj,
        if_true] <;>
      by_cases hji : j = i <;> simp [hji]
  · have h1 : j ≠ i := by omega
    simp [h1, BitVec.getLsbD_of_ge _ _ (by omega : 8 ≤ j)]

/-- Read slots after a stretch of line activity take the later samples. -/
@[simp] theorem readsTrace_after (p : Config.Params) (e : Env) (j k n : Nat)
    (ps : List Phase) : readsTrace p (e.after j ps) k n = readsTrace p e (j + k) n := by
  simp [readsTrace, Nat.add_assoc]

/-- Two stretches of read slots are one. -/
theorem readsTrace_append (p : Config.Params) (e : Env) (k m n : Nat) :
    readsTrace p e k m ++ readsTrace p e (k + m) n = readsTrace p e k (m + n) := by
  simp [readsTrace, List.range_add, List.flatMap_map, Nat.add_assoc]

/-- What n read slots leave behind (R123). -/
theorem readBitsInto_state (n i : Nat) (r : Byte) (s : State) (h : 0 < n ∨ s.drv = .released) :
    (readBitsInto n i r s).1 = s.afterLine n (readsTrace s.params s.env 0 n) := by
  induction n generalizing i r s with
  | zero =>
    have hd : s.drv = .released := by simpa using h
    cases s; simp_all [readBitsInto, readsTrace, State.afterLine]
  | succ n ih =>
    rw [readBitsInto, ih _ _ _ (Or.inr (by simp [State.readBit_eq])), State.readBit_eq]
    simp [readsTrace, List.range_succ_eq_map, List.flatMap_map, Nat.add_comm 1]

/-- Which bits n read slots set (R123). -/
theorem readBitsInto_bits (n i : Nat) (r : Byte) (s : State) (hn : i + n ≤ 8) (j : Nat) :
    (readBitsInto n i r s).2.getLsbD j =
      if i ≤ j ∧ j < i + n then s.env.sampleAt (j - i) else r.getLsbD j := by
  induction n generalizing i r s with
  | zero =>
    have h : ¬ (i ≤ j ∧ j < i + 0) := by omega
    simp only [readBitsInto, h, if_false]
  | succ n ih =>
    rw [readBitsInto, ih _ _ _ (by omega), State.readBit_eq]
    rw [getLsbD_setBit _ _ _ _ (by omega)]
    by_cases h1 : i + 1 ≤ j ∧ j < i + 1 + n
    · have h2 : i ≤ j ∧ j < i + (n + 1) := by omega
      have h3 : 1 + (j - (i + 1)) = j - i := by omega
      simp only [h1, h2, if_true, and_self, Env.sampleAt_after, h3]
    · by_cases h4 : j = i
      · subst h4; simp
      · have h2 : ¬ (i ≤ j ∧ j < i + (n + 1)) := by omega
        simp only [h1, h2, h4, if_false]

/-- Eight read slots leave the line released and use eight samples up (R123). -/
theorem State.readByte_state (s : State) :
    s.readByte.1 = s.afterLine 8 (readsTrace s.params s.env 0 8) :=
  readBitsInto_state 8 0 _ s (Or.inl (by decide))

/-- Eight read slots return the next eight samples, the first one in bit 0 (R123). -/
theorem State.readByte_reads (s : State) : ReadsByte s.env 0 s.readByte.2 := by
  intro i hi
  rw [State.readByte, readBitsInto_bits _ _ _ _ (by omega)]
  simp only [Nat.zero_le, hi, Nat.zero_add, and_self, if_true, Nat.sub_zero]

end Sys2Proof.Machine
end

