-- ==== Sys2Proof/Laws/PerInstr.lean ====
section
/-!
SUPPORT. Claims about every command as syntax, one lemma per constructor.
-/

namespace Sys2Proof.Laws.Encoding

/-- A command is well-formed, and its encoding is one byte, a row of the opcode map with that command
(spec/30_encoding.md R70, R75). -/
def Statement (i : Instr) : Prop :=
  i.wf = true ∧ (encode i).length = 1 ∧ (opcode i, i) ∈ opcodeMap

theorem reset : Statement .reset := by unfold Statement; decide
theorem wbit : Statement .wbit := by unfold Statement; decide
theorem rbit : Statement .rbit := by unfold Statement; decide
theorem wbyte : Statement .wbyte := by unfold Statement; decide
theorem rbyte : Statement .rbyte := by unfold Statement; decide
theorem crcb : Statement .crcb := by unfold Statement; decide
theorem rdrom : Statement .rdrom := by unfold Statement; decide
theorem srchf : Statement .srchf := by unfold Statement; decide
theorem srchn : Statement .srchn := by unfold Statement; decide
theorem enum : Statement .enum := by unfold Statement; decide
theorem enumc : Statement .enumc := by unfold Statement; decide
theorem poll : Statement .poll := by unfold Statement; decide

end Sys2Proof.Laws.Encoding
end

