-- ==== Sys2Proof/Laws/Rom.lean ====
section
/-!
SUPPORT. Identifier buffers: their 64 bits (spec/10_state.md R43), and what `ReadRom` leaves in one
(spec/44_presence.md R181).
-/

namespace Sys2Proof.Machine

/-! ### The 64 bits of a buffer -/

/-- `BIT(buf, n)` is a bit of a byte of the buffer (R43). -/
theorem romBit_eq (buf : Ident) (n : Nat) (h1 : 1 ≤ n) (h2 : n ≤ 64) :
    romBit buf n = (buf[(n - 1) / 8]'(by omega)).getLsbD ((n - 1) % 8) := by
  have h : (n - 1) / 8 < 8 := by omega
  simp [romBit, h]

/-- Setting bit n sets it and leaves the others (R43). -/
theorem romBit_romSetBit (buf : Ident) (n m : Nat) (d : Bool) (hn : 1 ≤ n) (hn' : n ≤ 64)
    (hm : 1 ≤ m) (hm' : m ≤ 64) :
    romBit (romSetBit buf n d) m = if m = n then d else romBit buf m := by
  have h1 : (n - 1) / 8 < 8 := by omega
  have h2 : (m - 1) / 8 < 8 := by omega
  rw [romBit_eq _ _ hm hm', romBit_eq _ _ hm hm', romSetBit, Vector.getElem_setIfInBounds]
  by_cases hb : (n - 1) / 8 = (m - 1) / 8
  · have hmn : m = n ↔ (m - 1) % 8 = (n - 1) % 8 := by omega
    rw [if_pos hb, getLsbD_setBit _ _ _ _ (by omega)]
    simp only [hmn, hb]
    simp [h2]
  · have hmn : m ≠ n := by rintro rfl; exact hb rfl
    rw [if_neg hb, if_neg hmn]

/-- A buffer is the bits it holds (R43). -/
theorem ident_ext {x y : Ident} (h : ∀ n, 1 ≤ n → n ≤ 64 → romBit x n = romBit y n) : x = y := by
  apply Vector.ext
  intro i hi
  apply BitVec.eq_of_getLsbD_eq
  intro j hj
  have hn := h (8 * i + j + 1) (by omega) (by omega)
  rw [romBit_eq _ _ (by omega) (by omega), romBit_eq _ _ (by omega) (by omega)] at hn
  have e1 : (8 * i + j + 1 - 1) / 8 = i := by omega
  have e2 : (8 * i + j + 1 - 1) % 8 = j := by omega
  simpa only [e1, e2] using hn

/-! ### `ReadRom` -/

/-- The state with a Read-ROM buffer replaced. -/
def State.romSet (b : RomTarget) (buf : Ident) (s : State) : State :=
  match b with
  | .rombuf => { s with rombuf := buf }
  | .pbuf => { s with pbuf := buf }

theorem State.romPut_eq (b : RomTarget) (i : Nat) (v : Byte) (s : State) :
    s.romPut b i v = s.romSet b ((s.romGet b).setIfInBounds i v) := by
  cases b <;> rfl

/-- `ReadRom`'s byte loop: the bytes from i on hold the next samples (R181). -/
theorem readRomBytes_spec (b : RomTarget) (k i : Nat) (s : State) (hk : i + k = 8)
    (hd : s.drv = .released) :
    ∃ buf : Ident,
      readRomBytes b k i s =
          (s.afterLine (8 * k) (readsTrace s.params s.env 0 (8 * k))).romSet b buf ∧
        ∀ j (h : j < 8),
          if i ≤ j then ReadsByte s.env (8 * (j - i)) buf[j] else buf[j] = (s.romGet b)[j] := by
  induction k generalizing i s with
  | zero =>
    refine ⟨s.romGet b, ?_, ?_⟩
    · cases s; cases b <;> simp_all [readRomBytes, readsTrace, State.romSet, State.romGet]
    · intro j h
      have : ¬ i ≤ j := by omega
      simp [this]
  | succ k ih =>
    obtain ⟨buf, hs, hb⟩ := ih (i + 1) (s.readByte.1.romPut b i s.readByte.2) (by omega) (by
      cases b <;> simp [State.romPut, State.readByte_state s])
    refine ⟨buf, ?_, ?_⟩
    · rw [readRomBytes, hs, State.readByte_state s, State.romPut_eq]
      have h := readsTrace_append s.params s.env 0 8 (8 * k)
      rw [Nat.zero_add] at h
      cases b <;> simp [State.romSet, h, Nat.mul_add, Nat.add_comm 8]
    · intro j hj
      have h := hb j hj
      by_cases h1 : i + 1 ≤ j
      · have h2 : i ≤ j := by omega
        rw [if_pos h1] at h
        rw [if_pos h2]
        intro a ha
        rw [h a ha, State.readByte_state s]
        have e : 8 + (8 * (j - (i + 1)) + a) = 8 * (j - i) + a := by omega
        cases b <;> simp [State.romPut, e]
      · rw [if_neg h1] at h
        by_cases h2 : j = i
        · subst h2
          have hr := State.readByte_reads s
          rw [if_pos (Nat.le_refl j), h]
          have e : ((s.readByte.1.romPut b j s.readByte.2).romGet b)[j] = s.readByte.2 := by
            cases b <;> simp [State.romPut, State.romGet]
          rw [e, Nat.sub_self]
          exact hr
        · have h3 : ¬ i ≤ j := by omega
          rw [if_neg h3, h]
          have h4 : i ≠ j := fun e => h2 e.symm
          rw [State.readByte_state s]
          cases b <;> simp [State.romPut, State.romGet, h4]

/-- `ReadRom(buf)`: sends 0x33, and buf then holds the next 64 samples, LSB first (R181, R58). -/
theorem State.readRom_spec (b : RomTarget) (s : State) :
    ∃ buf : Ident, ReadsIdent s.env 0 buf ∧
      s.readRom b =
        (s.afterLine 64
          (writeByteTrace s.params 0x33#8 ++ readsTrace s.params s.env 0 64)).romSet b buf := by
  obtain ⟨buf, hs, hb⟩ := readRomBytes_spec b 8 0 (s.writeByte readRomCmd) rfl
    (by simp [State.writeByte_eq])
  refine ⟨buf, ?_, ?_⟩
  · intro i hi a ha
    have h := hb i hi
    rw [if_pos (Nat.zero_le i)] at h
    have h' := h a ha
    rw [State.writeByte_eq] at h'
    simpa using h'
  · rw [State.readRom, hs, State.writeByte_eq]
    simp [readRomCmd]

end Sys2Proof.Machine
end

