-- ==== Sys2Proof/Laws/Search.lean ====
section
/-!
SUPPORT. What one position and one pass of the ROM search do (spec/43_search.md R152 to R158), in
terms of the samples they take.
-/

namespace Sys2Proof.Machine

/-- The direction one position takes on bits a and b (R153, R154). -/
def State.direction (n : Nat) (a b : Bool) (s : State) : Bool :=
  if a = b then s.chosenBranch n else a

/-- `StepBit(n)` on {1,1}: two read slots and nothing else (R153). -/
theorem State.stepBit_conflict (s : State) (n : Nat)
    (h : (s.env.sampleAt 0 && s.env.sampleAt 1) = true) :
    s.stepBit n =
      (s.afterLine 2
        (readTrace s.params (s.env.sampleAt 0) ++ readTrace s.params (s.env.sampleAt 1)),
        false) := by
  simp only [State.stepBit, State.readBit_eq]
  simp only [Env.sampleAt_after, State.afterLine_afterLine, Nat.add_zero, h, if_true]

/-- `StepBit(n)` otherwise: the branch is recorded, marked when it leaves a 0-branch, and written
back (R153 to R155). -/
theorem State.stepBit_ok (s : State) (n : Nat)
    (h : (s.env.sampleAt 0 && s.env.sampleAt 1) = false) :
    s.stepBit n =
      ({ s.afterLine 2
            (readTrace s.params (s.env.sampleAt 0) ++ readTrace s.params (s.env.sampleAt 1) ++
              writeTrace s.params (s.direction n (s.env.sampleAt 0) (s.env.sampleAt 1))) with
          rombuf := romSetBit s.rombuf n (s.direction n (s.env.sampleAt 0) (s.env.sampleAt 1))
          lastzero :=
            if s.env.sampleAt 0 = s.env.sampleAt 1 ∧ s.chosenBranch n = true then n
            else s.lastzero }, true) := by
  simp only [State.stepBit, State.readBit_eq]
  simp only [Env.sampleAt_after, State.afterLine_afterLine, Nat.add_zero, h]
  generalize s.env.sampleAt 0 = a at *
  generalize s.env.sampleAt 1 = b at *
  by_cases hab : a = b
  · subst hab
    simp only [State.direction, State.takeBranch, ne_eq, not_true_eq_false, if_false, if_true]
    have hc : ({ s with
        drv := .released
        env := s.env.after (1 + 1) (readTrace s.params a ++ readTrace s.params a) }
          : State).chosenBranch n = s.chosenBranch n := rfl
    simp only [State.afterLine, hc]
    by_cases hcb : s.chosenBranch n = true
    · simp [hcb, State.recordBit, State.writeBit_eq, State.afterLine]
    · simp [hcb, State.recordBit, State.writeBit_eq, State.afterLine]
  · simp [State.takeBranch, State.direction, hab, State.recordBit, State.writeBit_eq,
      State.afterLine]

/-- A pass in which position n is the next one: p and e are the parameters and the
environment at the pass's start, prev and
ld what the pass before left, and u the state now. -/
structure PassAt (p : Config.Params) (e : Env) (prev : Ident) (ld n : Nat) (u : State) : Prop where
  samples : ∀ j, u.env.sampleAt j = e.sampleAt (2 * n - 1 + j)
  params : u.params = p
  released : u.drv = .released
  bits : PassBits e 0 prev ld (n - 1) u.rombuf
  marker : LastZero e 0 prev ld (n - 1) u.lastzero
  ld : u.ld.toNat = ld

/-- What happens at position n of a pass. -/
theorem PassAt.direction_eq {p : Config.Params} {e : Env} {prev : Ident} {ld n : Nat} {u : State}
    (h : PassAt p e prev ld n u) (hn : 1 ≤ n) (hn' : n ≤ 64) :
    u.direction n (u.env.sampleAt 0) (u.env.sampleAt 1) = branchOf e 0 prev ld n := by
  have h0 : u.env.sampleAt 0 = identityBit e 0 n := by simp [h.samples, identityBit]
  have h1 : u.env.sampleAt 1 = complementBit e 0 n := by
    rw [h.samples, complementBit]; congr 1; omega
  have hb := h.bits n hn hn'
  rw [if_neg (by omega)] at hb
  simp only [State.direction, branchOf, h0, h1, State.chosenBranch, h.ld, hb]
  by_cases hc : identityBit e 0 n = complementBit e 0 n
  · by_cases hl : n < ld
    · simp [hc, hl]
    · by_cases he : n = ld
      · simp [he]
      · have : ld < n := by omega
        simp [hc, hl, he, this]
  · simp [hc]

/-- A completed position leads to the next one (R153 to R155). -/
theorem PassAt.next {p : Config.Params} {e : Env} {prev : Ident} {ld n : Nat} {u : State}
    (h : PassAt p e prev ld n u) (hn : 1 ≤ n) (hn' : n ≤ 64)
    (hc : (identityBit e 0 n && complementBit e 0 n) = false) :
    ∃ v : State, u.stepBit n = (v, true) ∧ PassAt p e prev ld (n + 1) v ∧
      v = { u.afterLine 2 (positionTrace p e 0 prev ld n) with
            rombuf := v.rombuf, lastzero := v.lastzero } := by
  have h0 : u.env.sampleAt 0 = identityBit e 0 n := by simp [h.samples, identityBit]
  have h1 : u.env.sampleAt 1 = complementBit e 0 n := by
    rw [h.samples, complementBit]; congr 1; omega
  have hd := h.direction_eq hn hn'
  have hs := u.stepBit_ok n (by rw [h0, h1]; exact hc)
  rw [hd, h0, h1] at hs
  refine ⟨_, hs, ⟨?_, h.params, rfl, ?_, ?_, h.ld⟩, by simp [positionTrace, h.params]⟩
  · intro j
    simp only [Env.sampleAt_after, h.samples]
    congr 1; omega
  · intro m hm hm'
    rw [romBit_romSetBit _ _ _ _ hn hn' hm hm']
    have hb := h.bits m hm hm'
    by_cases hmn : m = n
    · subst hmn; simp
    · rw [if_neg hmn, hb]
      by_cases hlt : m ≤ n - 1
      · rw [if_pos hlt, if_pos (by omega)]
      · rw [if_neg hlt, if_neg (by omega)]
  · have hz := h.marker
    rw [State.direction, h0, h1] at hd
    have hlz : (identityBit e 0 n = complementBit e 0 n ∧ u.chosenBranch n = true) ↔
        leavesZero e 0 prev ld n := by
      rw [leavesZero, ← hd]
      cases hi : identityBit e 0 n <;> cases hk : complementBit e 0 n <;> simp_all
    by_cases hl : leavesZero e 0 prev ld n
    · rw [if_pos (hlz.mpr hl)]
      show LastZero e 0 prev ld (n + 1 - 1) n
      refine ⟨fun m _ hm _ => by omega, Or.inr ⟨hn, by omega, hl⟩⟩
    · rw [if_neg (fun hh => hl (hlz.mp hh))]
      show LastZero e 0 prev ld (n + 1 - 1) u.lastzero
      refine ⟨fun m hm hm' hml => ?_, ?_⟩
      · by_cases hmn : m = n
        · exact absurd (hmn ▸ hml) hl
        · exact hz.1 m hm (by omega) hml
      · rcases hz.2 with hz | ⟨hz1, hz2, hz3⟩
        · exact Or.inl hz
        · exact Or.inr ⟨hz1, by omega, hz3⟩

/-- The phases of positions n to n + k - 1. -/
def positionsTrace (p : Config.Params) (e : Env) (prev : Ident) (ld n k : Nat) : List Phase :=
  (List.range k).flatMap (fun i => positionTrace p e 0 prev ld (n + i))

theorem positionsTrace_succ (p : Config.Params) (e : Env) (prev : Ident) (ld n k : Nat) :
    positionsTrace p e prev ld n (k + 1) =
      positionTrace p e 0 prev ld n ++ positionsTrace p e prev ld (n + 1) k := by
  simp [positionsTrace, List.range_succ_eq_map, List.flatMap_map, Nat.add_comm 1, Nat.add_assoc]

/-- The position loop when every position from n on is completed (R152, R156). -/
theorem searchBits_ok {p : Config.Params} {e : Env} {prev : Ident} {ld : Nat} (k n : Nat) (u : State)
    (hk : n + k = 65) (hn : 1 ≤ n) (h : PassAt p e prev ld n u)
    (hc : ∀ m, n ≤ m → m ≤ 64 → (identityBit e 0 m && complementBit e 0 m) = false) :
    ∃ v : State, searchBits k n u = (v.completePass, .ok) ∧ PassAt p e prev ld 65 v ∧
      v = { u.afterLine (2 * k) (positionsTrace p e prev ld n k) with
            rombuf := v.rombuf, lastzero := v.lastzero } := by
  induction k generalizing n u with
  | zero =>
    have : n = 65 := by omega
    subst this
    refine ⟨u, rfl, h, ?_⟩
    have := h.released
    cases u; simp_all [positionsTrace]
  | succ k ih =>
    obtain ⟨v, hv, hp, he⟩ := h.next hn (by omega) (hc n (Nat.le_refl n) (by omega))
    obtain ⟨w, hw, hpw, hew⟩ := ih (n + 1) v (by omega) (by omega) hp
      (fun m hm hm' => hc m (by omega) hm')
    refine ⟨w, by rw [searchBits, hv]; exact hw, hpw, ?_⟩
    rw [hew, he]
    simp [positionsTrace_succ, Nat.mul_add, Nat.add_comm 2]

/-- The position loop when position m is the first that reads {1,1} (R153, R157). -/
theorem searchBits_conflict {p : Config.Params} {e : Env} {prev : Ident} {ld : Nat}
    (k n m : Nat) (u : State) (hk : n + k = 65) (hn : 1 ≤ n) (h : PassAt p e prev ld n u)
    (hm : n ≤ m) (hm' : m ≤ 64)
    (hc : ∀ j, n ≤ j → j < m → (identityBit e 0 j && complementBit e 0 j) = false)
    (hx : identityBit e 0 m = true ∧ complementBit e 0 m = true) :
    ∃ v : State, searchBits k n u = (v.abortConflict, .conflict) ∧
      PassBits e 0 prev ld (m - 1) v.rombuf ∧ LastZero e 0 prev ld (m - 1) v.lastzero ∧
      v = { u.afterLine (2 * (m - n) + 2)
              (positionsTrace p e prev ld n (m - n) ++ (readTrace p true ++ readTrace p true)) with
            rombuf := v.rombuf, lastzero := v.lastzero } := by
  induction k generalizing n u with
  | zero => omega
  | succ k ih =>
    by_cases hnm : n = m
    · subst hnm
      have h0 : u.env.sampleAt 0 = true := by rw [h.samples]; simpa [identityBit] using hx.1
      have h1 : u.env.sampleAt 1 = true := by
        rw [h.samples, show 2 * n - 1 + 1 = 0 + 2 * n by omega]; exact hx.2
      have hs := u.stepBit_conflict n (by rw [h0, h1]; rfl)
      rw [h0, h1] at hs
      refine ⟨u.afterLine 2 (readTrace p true ++ readTrace p true), by simp [searchBits, hs, h.params],
        h.bits, h.marker, by simp [positionsTrace]⟩
    · obtain ⟨v, hv, hp, he⟩ := h.next hn (by omega) (hc n (Nat.le_refl n) (by omega))
      obtain ⟨w, hw, hb, hz, hew⟩ := ih (n + 1) v (by omega) (by omega) hp (by omega)
        (fun j hj hj' => hc j (by omega) hj')
      refine ⟨w, by rw [searchBits, hv]; exact hw, hb, hz, ?_⟩
      rw [hew, he]
      have e1 : m - n = (m - (n + 1)) + 1 := by omega
      rw [e1, positionsTrace_succ]
      simp [Nat.mul_add, Nat.add_comm 2]

/-- The state in which a pass starts its positions: reset done, 0xF0 sent (R152). -/
def State.atFirstPosition (s : State) : State :=
  { s.afterLine 1 (resetTrace s.params false ++ writeByteTrace s.params 0xF0#8) with
    status := { s.status with sok := false, pd := true, arm := false }
    lastzero := 0 }

theorem passAt_first (s : State) : PassAt s.params s.env s.rombuf s.ld.toNat 1 s.atFirstPosition where
  samples j := by simp [State.atFirstPosition]
  params := rfl
  released := rfl
  bits n hn hn' := by rw [if_neg (by omega)]; rfl
  marker := ⟨fun n hn hn' _ => by omega, Or.inl rfl⟩
  ld := rfl

/-- A pass that finds no presence (R152, R158). -/
theorem State.searchPass_noPres (s : State) (h : s.env.sampleAt 0 = true) :
    s.searchPass =
      ({ s.afterLine 1 (resetTrace s.params true) with
          ld := 0x00#8
          status :=
            { s.status with pd := false, arm := false, lastdev := false, sok := false
                            crcok := false } }, .noPres) := by
  simp [State.searchPass, State.resetPresence_eq, h, State.abortNoPres, State.abortPass,
    State.clearSok]

/-- A pass that finds a presence goes on to its first position (R152). -/
theorem State.searchPass_present (s : State) (h : s.env.sampleAt 0 = false) :
    s.searchPass = searchBits 64 1 s.atFirstPosition := by
  simp [State.searchPass, State.resetPresence_eq, h, State.clearSok, State.writeByte_eq,
    State.atFirstPosition, searchRomCmd]

theorem positionsTrace_first (p : Config.Params) (e : Env) (prev : Ident) (ld k : Nat) :
    positionsTrace p e prev ld 1 k =
      (List.range k).flatMap (fun i => positionTrace p e 0 prev ld (i + 1)) := by
  simp [positionsTrace, Nat.add_comm 1]

/-- A pass that completes all 64 positions (R152 to R156). -/
theorem State.searchPass_ok (s : State) (hs : s.env.sampleAt 0 = false)
    (hc : ∀ n, 1 ≤ n → n ≤ 64 → (identityBit s.env 0 n && complementBit s.env 0 n) = false) :
    ∃ (buf : Ident) (z : Nat),
      PassBits s.env 0 s.rombuf s.ld.toNat 64 buf ∧ LastZero s.env 0 s.rombuf s.ld.toNat 64 z ∧
      s.searchPass =
        ({ s.afterLine 129 (passTrace s.params s.env 0 s.rombuf s.ld.toNat 64) with
            rombuf := buf
            lastzero := z
            ld := BitVec.ofNat 8 z
            status :=
              { s.status with pd := true, arm := false, lastdev := decide (z = 0), sok := true
                              crcok := validRom buf } }, .ok) := by
  obtain ⟨v, hv, hp, he⟩ := searchBits_ok 64 1 _ rfl (Nat.le_refl 1) (passAt_first s) hc
  refine ⟨v.rombuf, v.lastzero, hp.bits, hp.marker, ?_⟩
  rw [State.searchPass_present s hs, hv, he]
  simp [State.completePass, State.atFirstPosition, passTrace, positionsTrace_first,
    beq_eq_decide]

/-- A pass that first reads {1,1} at position m (R153, R157). -/
theorem State.searchPass_conflict (s : State) (m : Nat) (hs : s.env.sampleAt 0 = false)
    (h1 : 1 ≤ m) (h2 : m ≤ 64)
    (hc : ∀ n, 1 ≤ n → n < m → (identityBit s.env 0 n && complementBit s.env 0 n) = false)
    (hx : identityBit s.env 0 m = true ∧ complementBit s.env 0 m = true) :
    ∃ (buf : Ident) (z : Nat),
      PassBits s.env 0 s.rombuf s.ld.toNat (m - 1) buf ∧
      LastZero s.env 0 s.rombuf s.ld.toNat (m - 1) z ∧
      s.searchPass =
        ({ s.afterLine (2 * m + 1)
              (passTrace s.params s.env 0 s.rombuf s.ld.toNat (m - 1) ++ readTrace s.params true ++
                readTrace s.params true) with
            rombuf := buf
            lastzero := z
            ld := 0x00#8
            events := s.events ||| 0x40#8
            status :=
              { s.status with pd := true, arm := false, lastdev := false, sok := false
                              crcok := false } }, .conflict) := by
  obtain ⟨v, hv, hb, hz, he⟩ :=
    searchBits_conflict 64 1 m _ rfl (Nat.le_refl 1) (passAt_first s) h1 h2 hc hx
  refine ⟨v.rombuf, v.lastzero, hb, hz, ?_⟩
  have e : 1 + (2 * (m - 1) + 2) = 2 * m + 1 := by omega
  rw [State.searchPass_present s hs, hv, he]
  simp only [State.abortConflict, State.abortPass, State.raise, State.atFirstPosition, passTrace,
    positionsTrace_first, Event.mask, Event.code, Env.after_after, e, List.append_assoc]
  rfl

end Sys2Proof.Machine
end

