-- ==== Sys2Proof/Laws/Sequencer.lean ====
section
/-!
SUPPORT. The sequencer's steps in stretches (spec/10_state.md R36): how many steps added together
move it, and what it does with a whole stretch of line primitives.
-/

namespace Sys2Proof.Machine

theorem State.seqSteps_add (s : State) (m n : Nat) :
    s.seqSteps (m + n) = (s.seqSteps m).seqSteps n := by
  induction m generalizing s with
  | zero => simp [State.seqSteps]
  | succ m ih => rw [Nat.succ_add, State.seqSteps, State.seqSteps, ih]

/-- A stretch of primitives one after the other, with the bits it samples. -/
def State.performAll : List Prim → State → State × List Bool
  | [], s => (s, [])
  | p :: ps, s =>
    ((State.performAll ps (s.perform p).1).1,
      (s.perform p).2 ++ (State.performAll ps (s.perform p).1).2)

theorem State.performAll_append (ps qs : List Prim) (s : State) :
    s.performAll (ps ++ qs) =
      (((s.performAll ps).1.performAll qs).1,
        (s.performAll ps).2 ++ ((s.performAll ps).1.performAll qs).2) := by
  induction ps generalizing s with
  | nil => simp [State.performAll]
  | cons p ps ih => simp [State.performAll, ih]

/-- A primitive does not look at the sequencer's position. -/
theorem State.perform_seq (p : Prim) (s : State) (q : Seq) :
    State.perform p { s with seq := q } =
      ({ (s.perform p).1 with seq := q }, (s.perform p).2) := by cases p <;> rfl

theorem State.performAll_seq (ps : List Prim) (s : State) (q : Seq) :
    State.performAll ps { s with seq := q } =
      ({ (s.performAll ps).1 with seq := q }, (s.performAll ps).2) := by
  induction ps generalizing s with
  | nil => rfl
  | cons p ps ih => simp [State.performAll, State.perform_seq, ih]

/-- As many steps as there are primitives left perform them all and reach the next point. -/
theorem State.seqSteps_stretch (op : Instr) (o : Origin) (todo : List Prim) (got : List Bool)
    (pt : Point) (s : State) :
    State.seqSteps todo.length { s with seq := .run op o { todo := todo, got := got, next := pt } } =
      { (s.performAll todo).1 with
        seq := .run op o { todo := [], got := got ++ (s.performAll todo).2, next := pt } } := by
  induction todo generalizing got s with
  | nil => simp [State.seqSteps, State.performAll]
  | cons p ps ih =>
    rw [List.length_cons, State.seqSteps]
    have h := ih (got ++ (s.perform p).2) (s.perform p).1
    simp only [State.seqStep, State.perform_seq, State.performAll]
    rw [h, List.append_assoc]

/-- The same from any sequencer position, as a count of steps. -/
theorem State.goto_stretch (op : Instr) (o : Origin) (todo : List Prim) (pt : Point) (s : State) :
    (s.goto op o todo pt).seqSteps todo.length =
      { (s.performAll todo).1 with
        seq := .run op o { todo := [], got := (s.performAll todo).2, next := pt } } := by
  rw [State.goto, State.seqSteps_stretch]
  simp

/-! ### The stretches of the commands -/

theorem State.performAll_reset (s : State) (p : Config.Params) :
    s.performAll (resetPrims p) =
      (s.afterLine 1 (resetTrace p (s.env.sampleAt 0)), [s.env.sampleAt 0]) := by
  simp [State.performAll, resetPrims, State.perform, resetTrace, State.driveLow, State.release,
    State.sample, State.log, Env.after, Env.sampleAt]

theorem State.performAll_writeBit (s : State) (p : Config.Params) (b : Bool) :
    s.performAll (writeBitPrims p b) = (s.afterLine 0 (writeTrace p b), []) := by
  cases b <;>
    simp [State.performAll, writeBitPrims, State.perform, writeTrace, State.driveLow, State.release,
      State.log, Env.after]

theorem State.performAll_readBit (s : State) (p : Config.Params) :
    s.performAll (readBitPrims p) =
      (s.afterLine 1 (readTrace p (s.env.sampleAt 0)), [s.env.sampleAt 0]) := by
  simp [State.performAll, readBitPrims, State.perform, readTrace, State.driveLow, State.release,
    State.sample, State.log, Env.after, Env.sampleAt]

theorem State.performAll_pair (s : State) (p : Config.Params) :
    s.performAll (pairPrims p) =
      (s.afterLine 2 (readTrace p (s.env.sampleAt 0) ++ readTrace p (s.env.sampleAt 1)),
        [s.env.sampleAt 0, s.env.sampleAt 1]) := by
  simp [pairPrims, State.performAll_append, State.performAll_readBit]

theorem State.performAll_writeByte (s : State) (p : Config.Params) (v : Byte) :
    s.performAll (writeBytePrims p v) = (s.afterLine 0 (writeByteTrace p v), []) := by
  simp [writeBytePrims, writeByteTrace, List.range_succ, State.performAll_append,
    State.performAll_writeBit]

theorem State.performAll_readByte (s : State) (p : Config.Params) :
    s.performAll (readBytePrims p) =
      (s.afterLine 8 (readsTrace p s.env 0 8), (List.range 8).map (fun i => s.env.sampleAt i)) := by
  simp [readBytePrims, List.range_succ, State.performAll_append, State.performAll_readBit,
    readsTrace]

/-- The byte put together from eight sampled bits is the one `ReadByte` returns (R123). -/
theorem byteOf_samples (s : State) :
    byteOf ((List.range 8).map (fun i => s.env.sampleAt i)) = s.readByte.2 := by
  simp [byteOf, State.readByte, readBitsInto, List.range_succ, State.readBit_eq]

end Sys2Proof.Machine
end

