-- ==== Sys2Proof/Tests/Slice0.lean ====
section
/-!
SUPPORT. Tests, each about one step or one command; expected values come from
spec/95_test_vectors.md (the vector's id stands at the test) or from the rule named. Then one witness
for each statement that has hypotheses: a concrete state that meets them.
-/

namespace Sys2Proof.Tests

open Sys2Proof.Machine

/-! ### Helpers -/

/-- The state with these bus answers to come. -/
def onLine (l : List Bool) (s : State) : State := { s with env := { s.env with line := l } }

/-- The state a command leaves, s itself if it does not complete. -/
def ran (i : Instr) (s : State) : State :=
  match exec i s with
  | .next t => t
  | .fault _ => s
  | .refused _ => s

/-- The state a step leaves when this is the next input, s itself if it stops. -/
def stepped (inp : Input) (s : State) : State :=
  match step (s.withInputs [inp]) with
  | .next t => t
  | .fault _ => s
  | .refused _ => s

/-- Whether a step with this input is refused. -/
def refuses (inp : Input) (s : State) (r : Refusal) : Bool :=
  match step (s.withInputs [inp]) with
  | .refused r' => r' == r
  | .next _ => false
  | .fault _ => false

/-- The state after RESET found a presence: PD and ARM set (V-L2). -/
def armed : State := { State.reset with status := { State.reset.status with pd := true, arm := true } }

/-- A reset state in which a host command runs at this position. -/
def running (op : Instr) (pos : Pos) : State :=
  { State.reset with
    seq := .run op .host pos, status := { State.reset.status with busy := true }, cmd := opcode op }

/-- The identifiers of spec/95_test_vectors.md. -/
def idA : Ident := #v[0x01#8, 0x01#8, 0x00#8, 0x00#8, 0x00#8, 0x00#8, 0x00#8, 0x0A#8]
def idB : Ident := #v[0x01#8, 0x00#8, 0x00#8, 0x00#8, 0x00#8, 0x00#8, 0x00#8, 0x3D#8]
def idC : Ident := #v[0x01#8, 0xA1#8, 0x4E#8, 0x4F#8, 0x00#8, 0x38#8, 0x00#8, 0x3C#8]
def idBad : Ident := #v[0x01#8, 0x02#8, 0x03#8, 0x04#8, 0x05#8, 0x06#8, 0x07#8, 0x00#8]

/-- What 64 read slots answer when one slave sends this identifier. -/
def readAnswers (x : Ident) : List Bool := (List.range 64).map (fun i => romBit x (i + 1))

/-- What the reference bus answers in a pass that ends at slave w. -/
def passAnswers (slaves : List Ident) (w : Ident) : List Bool :=
  slaves.isEmpty :: (List.range 64).flatMap (fun i =>
    [(inSearch slaves w (i + 1)).all (fun x => romBit x (i + 1)),
     (inSearch slaves w (i + 1)).all (fun x => !romBit x (i + 1))])

/-! ### Decoding: words written out from R75, R81 -/

theorem test_decode_reset : decode [0b00000001#8] = .ok (.reset, []) := by decide
theorem test_decode_rbyte : decode [0b00000101#8, 0xFF#8] = .ok (.rbyte, [0xFF#8]) := by decide
theorem test_decode_crcb : decode [0b00000110#8] = .ok (.crcb, []) := by decide
theorem test_decode_rdrom : decode [0b00010000#8] = .ok (.rdrom, []) := by decide
theorem test_decode_srchn : decode [0b00010010#8] = .ok (.srchn, []) := by decide
theorem test_decode_enumc : decode [0b00010100#8] = .ok (.enumc, []) := by decide
theorem test_decode_poll : decode [0b00100000#8] = .ok (.poll, []) := by decide

/-- Every row of the opcode table, as the host numbers its bits. -/
theorem test_decode_table :
    [0x01, 0x02, 0x03, 0x04, 0x05, 0x06, 0x10, 0x11, 0x12, 0x13, 0x14, 0x20].map
      (decodeTableWord 8) =
    [some .reset, some .wbit, some .rbit, some .wbyte, some .rbyte, some .crcb, some .rdrom,
      some .srchf, some .srchn, some .enum, some .enumc, some .poll] := by decide

/-- R79: the bounds of the illegal ranges, and no byte at all. -/
theorem test_decode_illegal :
    [0x00, 0x07, 0x0F, 0x15, 0x1F, 0x21, 0xFF].all (fun v => (decodeTableWord 8 v).isNone) = true ∧
    decode [] = .error .noByte := by decide

/-- P1, P3, P6: `wr IE, 0x30` is 8330, `rd CENT+7` is 2700, `wr CMD, 0x42` is 8042, `ack` is 82FF. -/
theorem test_host_words :
    decodeHostWord 0x8330#16 = some (wr .ie 0x30#8) ∧ decodeHostWord 0x2700#16 = some (rd (.cent 7)) ∧
    decodeHostWord 0x8042#16 = some (wr .cmd 0x42#8) ∧ encodeHostWord ackAccess = 0x82FF#16 ∧
    encodeHostWord (cmdAccess .poll) = 0x8020#16 ∧ decodeHostWord 0xC000#16 = none ∧
    decodeHostWord 0x4000#16 = none := by decide

/-! ### Well-formedness -/

/-- R55: an access of width 2 (or 0) is no term of the interface, and the machine refuses it. -/
theorem test_wf_access_width :
    (HostAccess.read 0x00#6 2).wf = false ∧ (HostAccess.write 0x00#6 0 0xFF#8).wf = false ∧
    (HostAccess.read 0x3F#6 1).wf = true ∧ (HostAccess.write 0x00#6 1 0x01#8).wf = true ∧
    refuses (.access (.read 0x00#6 2)) State.reset .accessWidth = true ∧
    refuses (.access (.write 0x00#6 0 0x01#8)) State.reset .accessWidth = true := by decide

/-- R81: a word with bit 14 = 1 is refused. -/
theorem test_refused_word : refuses (.host 0x4000#16) State.reset .notHostOperation = true := by decide

/-! ### Commands -/

/-- V-L1. -/
theorem test_reset_empty :
    (ran .reset (onLine [true] State.reset)).status.byte = 0x00#8 ∧
    (ran .reset (onLine [true] State.reset)).events = 0x18#8 := by decide

/-- V-L2, V-L4. -/
theorem test_reset_presence :
    (ran .reset (onLine [false] State.reset)).status.byte = 0x42#8 ∧
    (ran .reset (onLine [false] State.reset)).env.trace =
      [.low 480, .rel 70, .smp false, .rel 410] := by decide

/-- V-L5, V-B2. -/
theorem test_wbit_one :
    (ran .wbit { armed with data := 0x01#8 }).status.byte = 0x02#8 ∧
    (ran .wbit { armed with data := 0x01#8 }).env.trace = [.low 6, .rel 64] := by decide

/-- V-B1. -/
theorem test_wbit_zero :
    (ran .wbit { State.reset with data := 0xFE#8 }).env.trace = [.low 60, .rel 10] := by decide

/-- V-B3. -/
theorem test_rbit :
    (ran .rbit (onLine [true] State.reset)).data = 0x01#8 ∧
    (ran .rbit (onLine [true] State.reset)).env.trace =
      [.low 6, .rel 9, .smp true, .rel 55] := by decide

/-- V-B5: 0x33 goes out as 1,1,0,0,1,1,0,0. -/
theorem test_wbyte :
    (ran .wbyte { State.reset with data := 0x33#8 }).env.trace =
      [true, true, false, false, true, true, false, false].flatMap (writeTrace Config.standard) := by decide

/-- R123: the first bit read is bit 0; 1,0,1,0,0,0,0,1 is 0x85 (hand computed). -/
theorem test_rbyte :
    (ran .rbyte (onLine [true, false, true, false, false, false, false, true] State.reset)).data =
      0x85#8 := by decide

/-- V-C1, V-L6. -/
theorem test_crcb :
    (ran .crcb { armed with crc := 0x12#8, data := 0x34#8 }).crc = 0xFE#8 ∧
    (ran .crcb armed).status.byte = 0x42#8 := by decide

set_option maxRecDepth 100000 in
/-- V-W1, V-W3 (FF seven times gives 14), V-C4. -/
theorem test_crc8 :
    crc8 (idC.toList.take 7) = 0x3C#8 ∧ crc8 (List.replicate 7 0xFF#8) = 0x14#8 ∧
    validRom idC = true ∧ validRom (romSetBit idC 49 true) = false ∧ validRom idBad = false := by
  decide

set_option maxRecDepth 100000 in
/-- V-R1. -/
theorem test_rdrom :
    (ran .rdrom (onLine (readAnswers idC) armed)).rombuf = idC ∧
    (ran .rdrom (onLine (readAnswers idC) armed)).status.byte = 0x22#8 := by decide

set_option maxRecDepth 100000 in
/-- V-R3: nothing answers. -/
theorem test_rdrom_removed :
    (ran .rdrom (onLine (List.replicate 64 true) armed)).events = 0x28#8 ∧
    (ran .rdrom (onLine (List.replicate 64 true) armed)).status.byte = 0x02#8 := by decide

/-- V-S1, first pass: A is found and position 9 is the last untaken 0-branch. -/
def afterFirst : State := ran .srchf (onLine (passAnswers [idA, idB] idA) State.reset)

/-- The state V-S1 gives after its first pass, with the answers of the second to come. -/
def beforeSecond : State :=
  onLine (passAnswers [idA, idB] idB)
    { State.reset with
      rombuf := idA, ld := 0x09#8
      status := { State.reset.status with pd := true, crcok := true, sok := true } }

set_option maxRecDepth 100000 in
/-- V-S1 step 1. -/
theorem test_srchf :
    afterFirst.rombuf = idA ∧ afterFirst.ld = 0x09#8 ∧ afterFirst.status.byte = 0xA2#8 ∧
    afterFirst.events = 0x08#8 := by decide

set_option maxRecDepth 100000 in
/-- V-S1 step 2. -/
theorem test_srchn :
    (ran .srchn beforeSecond).rombuf = idB ∧ (ran .srchn beforeSecond).ld = 0x00#8 ∧
    (ran .srchn beforeSecond).status.byte = 0xB2#8 := by decide

/-- V-S1 step 3. -/
theorem test_srchn_exit :
    (ran .srchn { State.reset with
      status := { State.reset.status with
        pd := true, lastdev := true, crcok := true, sok := true } }).status.byte = 0x32#8 := by decide

set_option maxRecDepth 100000 in
/-- V-S9 step 1: a stuck-low line. -/
theorem test_srchf_stuck_low :
    (ran .srchf (onLine (List.replicate 129 false) State.reset)).ld = 64#8 ∧
    (ran .srchf (onLine (List.replicate 129 false) State.reset)).status.byte = 0x82#8 ∧
    (ran .srchf (onLine (List.replicate 129 false) State.reset)).events = 0x28#8 := by decide

/-- A block with CACHE_DEPTH = 2 after reset (R8), with the answers of V-S10's bus of A, B, C. -/
def depthTwo : State :=
  State.initial { Config.standard with cacheDepth := 2 }
    { Env.quiet with line := passAnswers [idC, idA, idB] idC ++ passAnswers [idC, idA, idB] idA }

set_option maxRecDepth 100000 in
/-- V-S10 step 1: ENUM stops on capacity. -/
theorem test_enum_capacity :
    (ran .enum depthTwo).ccount = 2#8 ∧ (ran .enum depthTwo).cache = [idC, idA] ∧
    (ran .enum depthTwo).status.byte = 0xA2#8 ∧ (ran .enum depthTwo).ld = 0x09#8 := by decide

/-- The state ENUM leaves on the bus of V-S1. -/
def afterEnum : State :=
  ran .enum (onLine (passAnswers [idA, idB] idA ++ passAnswers [idA, idB] idB) State.reset)

set_option maxRecDepth 100000 in
/-- ENUM on the bus of V-S1 (as V-S8 for its two devices), and on an empty bus (V-S5). -/
theorem test_enum :
    afterEnum.ccount = 2#8 ∧ afterEnum.cache.take 2 = [idA, idB] ∧
    afterEnum.status.byte = 0xB2#8 ∧ afterEnum.ld = 0x00#8 ∧ afterEnum.events = 0x08#8 ∧
    (ran .enum (onLine [true] State.reset)).ccount = 0x00#8 ∧
    (ran .enum (onLine [true] State.reset)).status.byte = 0x00#8 ∧
    (ran .enum (onLine [true] State.reset)).events = 0x08#8 := by decide

/-- V-S10 step 3: ENUMC with LASTDEV = 1. -/
theorem test_enumc_done :
    (ran .enumc { State.reset with
      ccount := 1#8, status := { State.reset.status with lastdev := true } }).ccount = 0x00#8 := by
  decide

set_option maxRecDepth 100000 in
/-- ENUMC from the state V-S1 gives after its first pass finds B only (R162). -/
theorem test_enumc :
    (ran .enumc beforeSecond).ccount = 1#8 ∧ (ran .enumc beforeSecond).cache[0]? = some idB ∧
    (ran .enumc beforeSecond).status.byte = 0xB2#8 := by decide

set_option maxRecDepth 100000 in
/-- V-P2. -/
theorem test_poll_inserted :
    (ran .poll (onLine (false :: readAnswers idC) State.reset)).status.byte = 0x0E#8 ∧
    (ran .poll (onLine (false :: readAnswers idC) State.reset)).idBuf = idC ∧
    (ran .poll (onLine (false :: readAnswers idC) State.reset)).events = 0x0D#8 := by decide

/-- V-P10: a removal with RMCLR = 1. -/
theorem test_poll_removed :
    (ran .poll (onLine [true] { State.reset with
      ctrl := 0x02#8, idBuf := idC
      status := { State.reset.status with
        pd := true, session := true, idv := true } })).status.byte = 0x00#8 ∧
    (ran .poll (onLine [true] { State.reset with
      ctrl := 0x02#8, idBuf := idC
      status := { State.reset.status with
        pd := true, session := true, idv := true } })).events = 0x0A#8 := by decide

/-! ### The dispatcher and the window -/

/-- V-D1, V-D2, V-D3. -/
theorem test_rejected_writes :
    [0x00#8, 0x07#8, 0xFF#8, 0x10#8].all (fun v =>
      stepped (.access (.write 0x00#6 1 v)) State.reset ==
        { State.reset with events := 0x80#8 }) = true := by decide

/-- V-D6, V-D12: what reserved addresses read, and writes to read-only registers. -/
theorem test_reserved_and_read_only :
    [0x0A#6, 0x28#6, 0x3F#6].all (fun a =>
      (stepped (.access (.read a 1)) State.reset).env.reads == [(a, 0x00#8)]) = true ∧
    stepped (.access (wr .status 0xFF#8)) State.reset = State.reset ∧
    stepped (.access (wr .ld 0x05#8)) State.reset = State.reset := by decide

/-- V-D7, V-D10. -/
theorem test_ctrl_and_events_writes :
    (stepped (.access (wr .ctrl 0xFF#8)) State.reset).ctrl = 0x03#8 ∧
    (stepped (.access (wr .events 0x08#8)) { State.reset with events := 0x88#8 }).events = 0x80#8 := by
  decide

/-- V-E1 to V-E3: IRQ follows EVENTS & IE. -/
theorem test_irq :
    State.irq { State.reset with events := 0x18#8, ie := 0x10#8 } = true ∧
    State.irq { State.reset with events := 0x08#8, ie := 0x10#8 } = false ∧
    State.irq { State.reset with events := 0x18#8 } = false := by decide

/-- The host's question: the step after withFetchWord runs the instruction of the word. -/
theorem test_withFetchWord :
    step (State.reset.withFetchWord 8 0x06) = exec .crcb State.reset ∧
    step (State.reset.withFetchWord 8 0x20) = exec .poll State.reset := ⟨rfl, rfl⟩

/-! ### Witnesses: concrete states that meet the hypotheses of the statements -/

/-- EveryByteIsACommandOrIllegal, at the bounds of R79's ranges. -/
theorem witness_EveryByteIsACommandOrIllegal :
    ∀ v ∈ [0x00#8, 0x07#8, 0x0F#8, 0x15#8, 0x1F#8, 0x21#8, 0xFF#8],
      decodeOpcode v = .error (.illegalOpcode v) := by decide

/-- HostOperationsRoundTrip. -/
theorem witness_HostOperationsRoundTrip :
    (HostAccess.write 0x3F#6 1 0xFF#8).wf = true ∧ (HostAccess.read 0x00#6 1).wf = true ∧
    (0x4000#16).getLsbD 14 = true ∧ (0xFFFF#16).getLsbD 14 = true := by decide

/-- EveryRegisterHasOneAddress: the last register of the last block is no reserved address. -/
theorem witness_EveryRegisterHasOneAddress :
    (Reg.cent 7 ≠ .reserved ∧ addrReg 0x27#6 = .cent 7) ∧
    addrReg 0x0A#6 = .reserved ∧ addrReg 0x0F#6 = .reserved ∧ addrReg 0x28#6 = .reserved ∧
    addrReg 0x3F#6 = .reserved := by decide

/-- StepRunsTheDecodedCommand, both clauses. -/
theorem witness_StepRunsTheDecodedCommand :
    (State.reset.withInputs [.command 0x01#8]).env.inputs = [.command 0x01#8] ∧
    decodeOpcode 0x01#8 = .ok .reset ∧ decodeOpcode 0x42#8 = .error (.illegalOpcode 0x42#8) ∧
    (State.reset.withInputs [.command 0x42#8]).env.inputs = [.command 0x42#8] := by decide

/-- StepTakesTheNextInput, each clause. -/
theorem witness_StepTakesTheNextInput :
    State.reset.env.inputs = [] ∧ (State.reset.withInputs [.seq]).env.inputs = [.seq] ∧
    (State.reset.withInputs [.elapse 7]).env.inputs = [.elapse 7] ∧
    (State.reset.withInputs [.host 0x0100#16]).env.inputs = [.host 0x0100#16] ∧
    decodeHostWord 0x0100#16 = some (rd .status) := by decide

/-- BlockResetReplacesEveryValue, in the middle of a read slot. -/
theorem witness_BlockResetReplacesEveryValue :
    ((running .rbit { todo := [.smp, .rel 55], got := [], next := .bitRead }).withInputs
      [.rst]).env.inputs = [.rst] := by decide

/-- An idle state of the invariant that has found and cached something, in the environment e. -/
def foundState (e : Env) : State :=
  { beforeSecond with ccount := 1#8, cache := idA :: List.replicate 7 zeroIdent, env := e }

/-- A state of the invariant inside ENUM, at this position. -/
def midEnum (pos : Pos) (e : Env) : State :=
  { foundState e with
    passes := 1
    seq := .run .enum .host pos
    status := { beforeSecond.status with busy := true } }

/-- About to sample, in the first read slot of position 64. -/
def sampling : Pos :=
  { todo := .smp :: .rel 55 :: readBitPrims Config.standard, got := [], next := .pair 64 }

/-- About to end the command. -/
def ending : Pos := { todo := [], got := [], next := .finish }

/-- An environment with these inputs to come. -/
def envOf (inputs : List Input) : Env := { Env.quiet with inputs := inputs }

set_option maxRecDepth 100000 in
theorem validRom_idA : validRom idA = true := by decide

theorem foundState_cacheValid (e : Nat) (x : Ident) (h : e < (1#8).toNat)
    (hx : (idA :: List.replicate 7 zeroIdent)[e]? = some x) : validRom x = true := by
  obtain rfl : e = 0 := by
    have : (1#8).toNat = 1 := rfl
    omega
  obtain rfl : idA = x := by simpa using hx
  exact validRom_idA

/-- The invariant's witness at Idle. -/
theorem foundState_inv (e : Env) : Inv (foundState e) where
  params := rfl
  ld := by show (9#8).toNat ≤ 64; decide
  ccount := by show (1#8).toNat ≤ 8; decide
  busy := ⟨fun h => (nomatch h), fun h => absurd rfl h⟩
  idleReleased := fun _ => rfl
  idValid := fun h => nomatch h
  ctrl := by show 0x00#8 &&& 0xFC#8 = 0x00#8; decide
  cacheValid := foundState_cacheValid
  cacheLength := rfl
  lastzero := Nat.zero_le _
  passes := Nat.zero_le _
  apt := Nat.zero_le _
  pos := fun _ _ _ h => nomatch h

/-- The invariant's witness in a running command, at a position that keeps the line protocol. -/
theorem midEnum_inv (p : Pos) (e : Env) (h : PosInv .enum p (midEnum p e)) :
    Inv (midEnum p e) where
  params := rfl
  ld := by show (9#8).toNat ≤ 64; decide
  ccount := by show (1#8).toNat ≤ 8; decide
  busy := ⟨fun _ h => (nomatch h), fun _ => rfl⟩
  idleReleased := fun _ => rfl
  idValid := fun h => nomatch h
  ctrl := by show 0x00#8 &&& 0xFC#8 = 0x00#8; decide
  cacheValid := foundState_cacheValid
  cacheLength := rfl
  lastzero := Nat.zero_le _
  passes := by show 1 ≤ 64; decide
  apt := Nat.zero_le _
  pos := fun _ _ _ hs => by cases hs; exact h

theorem sampling_inv (e : Env) : Inv (midEnum sampling e) :=
  midEnum_inv _ _ ⟨⟨rfl, rfl, rfl⟩, Nat.le_refl 64, rfl,
    fun _ _ => by show (1#8).toNat < 8; decide, fun h => nomatch h⟩

theorem ending_inv (e : Env) : Inv (midEnum ending e) :=
  midEnum_inv _ _ ⟨rfl, Nat.zero_le _, rfl, fun _ h => (nomatch h), fun h => nomatch h⟩

/-- EveryStepKeepsTheInvariant and EveryCommandEnds: a state of the invariant steps, idle with a
command to come and inside a running command. -/
theorem witness_EveryStepKeepsTheInvariant :
    (Inv (foundState (envOf [.command 0x14#8])) ∧
      ∃ t, step (foundState (envOf [.command 0x14#8])) = .next t) ∧
    (Inv (midEnum sampling Env.quiet) ∧ ∃ t, step (midEnum sampling Env.quiet) = .next t) :=
  ⟨⟨foundState_inv _, _, rfl⟩, ⟨sampling_inv _, _, rfl⟩⟩

/-- CommandRunIsItsSequencerSteps, RDROM among them. -/
theorem witness_CommandRunIsItsSequencerSteps :
    armed.status.busy = false ∧ (Instr.rdrom = .rdrom → armed.status.arm = true) := by decide

/-- AutopollRunIsAPollWithoutDone. -/
theorem witness_AutopollRunIsAPollWithoutDone : State.reset.status.busy = false := by decide

/-- AutopollStartsExactlyWhenDue, on both sides of T_POLL. -/
theorem witness_AutopollStartsExactlyWhenDue :
    (State.reset.seq = .idle ∧ State.reset.env.inputs = []) ∧
    (({ State.reset with ctrl := 0x01#8, apt := 50000 } : State).ctrl.getLsbD 0 = true ∧
      50000 ≤ ({ State.reset with ctrl := 0x01#8, apt := 50000 } : State).apt) ∧
    ({ State.reset with ctrl := 0x01#8, apt := 49999 } : State).apt < 50000 ∧
    ({ State.reset with apt := 50000 } : State).ctrl.getLsbD 0 = false := by decide

/-- LinePrimitiveIsOneStep, each primitive. -/
theorem witness_LinePrimitiveIsOneStep :
    (running .rbit { todo := [.low 6], got := [], next := .bitRead }).env.inputs = [] ∧
    (running .rbit { todo := [.low 6], got := [], next := .bitRead }).seq =
      .run .rbit .host { todo := .low 6 :: [], got := [], next := .bitRead } ∧
    (running .rbit { todo := [.rel 9], got := [], next := .bitRead }).seq =
      .run .rbit .host { todo := .rel 9 :: [], got := [], next := .bitRead } ∧
    (running .rbit { todo := [.smp], got := [], next := .bitRead }).seq =
      .run .rbit .host { todo := .smp :: [], got := [], next := .bitRead } := by decide

/-- CommandEndIsOneStep. -/
theorem witness_CommandEndIsOneStep :
    (running .poll { todo := [], got := [true], next := .finish }).env.inputs = [] ∧
    (running .poll { todo := [], got := [true], next := .finish }).seq =
      .run .poll .host { todo := [], got := [true], next := .finish } := by decide

/-- SamplesAreTakenWithTheLineReleased: a step of the invariant that samples, and one that ends a
command. -/
theorem witness_SamplesAreTakenWithTheLineReleased :
    (Inv (midEnum sampling Env.quiet) ∧ (midEnum sampling Env.quiet).env.inputs = [] ∧
      ∃ t, step (midEnum sampling Env.quiet) = .next t ∧
        t.env.nSamples ≠ (midEnum sampling Env.quiet).env.nSamples) ∧
    (Inv (midEnum ending (envOf [.seq])) ∧
      (midEnum ending (envOf [.seq])).env.inputs = .seq :: [] ∧
      (midEnum ending (envOf [.seq])).seq ≠ .idle ∧
      ∃ t, step (midEnum ending (envOf [.seq])) = .next t ∧ t.seq = .idle) :=
  ⟨⟨sampling_inv _, rfl, _, rfl, by show 0 + 1 ≠ 0; decide⟩,
    ⟨ending_inv _, rfl, fun h => (nomatch h), _, rfl, rfl⟩⟩

/-- CommandsWhileBusyAreRejected. -/
theorem witness_CommandsWhileBusyAreRejected :
    (running .crcb { todo := [], got := [], next := .start }).status.busy = true := by decide

/-- RdromWithoutArmIsRejected. -/
theorem witness_RdromWithoutArmIsRejected :
    State.reset.status.busy = false ∧ State.reset.status.arm = false := by decide

/-- LegalCommandWriteIsAccepted, for RDROM with ARM = 1. -/
theorem witness_LegalCommandWriteIsAccepted :
    (armed.withInputs [.access (cmdAccess .rdrom)]).env.inputs = [.access (cmdAccess .rdrom)] ∧
    armed.status.busy = false ∧ armed.status.arm = true := by decide

/-- The statements whose only hypothesis is BUSY = 0 (RESET, WBIT, RBIT, WBYTE, RBYTE, CRCB), with
and without a presence to sample. -/
theorem witness_idle :
    State.reset.status.busy = false ∧ (onLine [false] State.reset).env.sampleAt 0 = false ∧
    (onLine [true] State.reset).env.sampleAt 0 = true := by decide

set_option maxRecDepth 100000 in
/-- CrcRoundTrip and CrcDetectsEverySingleBitError, at positions 1 and 64. -/
theorem witness_Crc :
    idC[7] = crc8 (idC.toList.take 7) ∧ validRom idC = true ∧
    validRom (romSetBit idC 1 (!romBit idC 1)) = false ∧
    validRom (romSetBit idC 64 (!romBit idC 64)) = false := by decide

/-- OnlyCrcbAndTheHostChangeCrc: a step that changes CRC. -/
theorem witness_OnlyCrcbAndTheHostChangeCrc :
    (stepped (.command 0x06#8) { State.reset with data := 0x01#8 }).crc ≠
      ({ State.reset with data := 0x01#8 } : State).crc ∧
    (stepped (.access (wr .crc 0x55#8)) State.reset).crc ≠ State.reset.crc := by decide

/-- RdromReadsTheIdentifier. -/
theorem witness_RdromReadsTheIdentifier :
    (onLine (readAnswers idC) armed).status.busy = false ∧
    (onLine (readAnswers idC) armed).status.arm = true := by decide

/-- SrchnAfterTheLastDeviceDoesNothing and EnumcAfterTheLastDeviceRunsNoPass. -/
theorem witness_lastDevice :
    ({ State.reset with status := { State.reset.status with lastdev := true } } : State).status.busy
      = false ∧
    ({ State.reset with
      status := { State.reset.status with lastdev := true } } : State).status.lastdev = true := by
  decide

/-- SearchWithoutPresence and EnumerationOfAnEmptyBus, for the first and the next commands. -/
theorem witness_emptyBus :
    State.reset.status.lastdev = false ∧ (onLine [true] State.reset).status.busy = false ∧
    State.reset.params.wf = true ∧
    (onLine [true] State.reset).env.sampleAt 0 = true := by decide

set_option maxRecDepth 100000 in
/-- SearchPassTakesTheBranches: SRCHF on the bus of V-S1, and SRCHN after it. -/
theorem witness_SearchPassTakesTheBranches :
    (let s := onLine (passAnswers [idA, idB] idA) State.reset
     s.status.busy = false ∧ s.env.sampleAt 0 = false ∧
      ∀ n < 65, 1 ≤ n → ¬ (identityBit s.env 0 n = true ∧ complementBit s.env 0 n = true)) ∧
    (beforeSecond.status.lastdev = false ∧ beforeSecond.status.busy = false ∧
      beforeSecond.env.sampleAt 0 = false ∧
      ∀ n < 65, 1 ≤ n →
        ¬ (identityBit beforeSecond.env 0 n = true ∧ complementBit beforeSecond.env 0 n = true)) := by
  decide

/-- Bus answers whose only {1,1} is at position m. -/
def conflictAt (m : Nat) : List Bool :=
  false :: List.replicate (2 * (m - 1)) false ++ [true, true]

set_option maxRecDepth 100000 in
/-- SearchPassAbortsOnConflict, at the first and the last position. -/
theorem witness_SearchPassAbortsOnConflict :
    ∀ m ∈ [1, 64],
      let s := onLine (conflictAt m) State.reset
      s.status.busy = false ∧ s.env.sampleAt 0 = false ∧
      (∀ n < m, 1 ≤ n → ¬ (identityBit s.env 0 n = true ∧ complementBit s.env 0 n = true)) ∧
      identityBit s.env 0 m = true ∧ complementBit s.env 0 m = true := by decide

/-- The bounded form of `BusAnswers`, which can be evaluated. -/
theorem busAnswers_of_bounded (e : Env) (k : Nat) (slaves : List Ident) (w : Ident)
    (h0 : e.sampleAt k = slaves.isEmpty)
    (h : ∀ n < 65, 1 ≤ n →
      identityBit e k n = (inSearch slaves w n).all (fun x => romBit x n) ∧
        complementBit e k n = (inSearch slaves w n).all (fun x => !romBit x n)) :
    BusAnswers e k slaves w :=
  ⟨h0, fun n h1 h2 => h n (by omega) h1⟩

set_option maxRecDepth 100000 in
/-- SearchFindsSlavesInLineOrder, first clause: the bus of V-S1 answers while A is found. -/
theorem witness_SearchFindsSlavesInLineOrder_first :
    BusAnswers (onLine (passAnswers [idA, idB] idA) State.reset).env 0 [idA, idB]
      (ran .srchf (onLine (passAnswers [idA, idB] idA) State.reset)).rombuf := by
  rw [show (ran .srchf (onLine (passAnswers [idA, idB] idA) State.reset)).rombuf = idA from
    test_srchf.1]
  exact busAnswers_of_bounded _ _ _ _ (by decide +kernel) (by decide +kernel)

set_option maxRecDepth 100000 in
/-- SearchFindsSlavesInLineOrder, second clause: the enumeration of V-S1 after its first pass, and
the bus answers while B is found. -/
theorem witness_SearchFindsSlavesInLineOrder_next :
    Enumerating [idA, idB] beforeSecond ∧ beforeSecond.status.lastdev = false ∧
    beforeSecond.status.busy = false ∧
    BusAnswers beforeSecond.env 0 [idA, idB] (ran .srchn beforeSecond).rombuf := by
  have hr : beforeSecond.rombuf = idA := rfl
  have hl : beforeSecond.ld.toNat = 9 := rfl
  rw [test_srchn.1]
  refine ⟨?_, rfl, rfl, busAnswers_of_bounded _ _ _ _ (by decide +kernel) (by decide +kernel)⟩
  unfold Enumerating
  rw [hr, hl]
  refine ⟨by decide, ?_, .inr ⟨by decide, by decide, idB, by decide, by decide⟩, rfl⟩
  intro n h1 h2 ⟨h3, y, hy, hz⟩
  obtain ⟨hm, hall⟩ := List.mem_filter.mp hy
  by_cases hn : n ≤ 9
  · exact hn
  · obtain rfl | rfl : y = idA ∨ y = idB := by simpa using hm
    · rw [h3] at hz
      exact nomatch hz
    · exact absurd (List.all_eq_true.mp hall 9 (List.mem_range.mpr (by omega))) (by decide)

/-- EnumerationEndsWithValidEntries. -/
theorem witness_EnumerationEndsWithValidEntries :
    Inv (foundState beforeSecond.env) ∧ (foundState beforeSecond.env).status.busy = false :=
  ⟨foundState_inv _, rfl⟩

/-- A is greater than B in line order: position 9 decides. -/
theorem lineGreater_A_B : LineGreater idA idB := by
  refine ⟨9, by decide, by decide, ?_, by decide, by decide⟩
  intro m h1 h2
  have h : ∀ m < 9, 1 ≤ m → romBit idA m = romBit idB m := by decide
  exact h m h2 h1

/-- The answers to the two passes of an enumeration of A and B. -/
def twoPasses : State :=
  onLine (passAnswers [idA, idB] idA ++ passAnswers [idA, idB] idB) (foundState Env.quiet)

set_option maxRecDepth 100000 in
theorem twoPasses_first : BusAnswers twoPasses.env 0 [idA, idB] idA :=
  busAnswers_of_bounded _ _ _ _ (by decide +kernel) (by decide +kernel)

set_option maxRecDepth 100000 in
theorem twoPasses_second : BusAnswers twoPasses.env 129 [idA, idB] idB :=
  busAnswers_of_bounded _ _ _ _ (by decide +kernel) (by decide +kernel)

/-- EnumFindsEverySlave: two slaves, and the bus's answers to both passes. -/
theorem witness_EnumFindsEverySlave :
    [idA, idB] ≠ [] ∧ [idA, idB].Pairwise LineGreater ∧ Inv twoPasses ∧
    twoPasses.status.busy = false ∧
    (∀ j (h : j < [idA, idB].length),
      BusAnswers twoPasses.env (129 * j) [idA, idB] [idA, idB][j]) := by
  refine ⟨by decide, by simp [lineGreater_A_B], foundState_inv _, rfl, ?_⟩
  intro j h
  match j, h with
  | 0, _ => exact twoPasses_first
  | 1, _ => exact twoPasses_second

/-- EnumcFindsTheRemainingSlaves: the state of V-S1 after its first pass, B still to be found. -/
theorem witness_EnumcFindsTheRemainingSlaves :
    let s := foundState beforeSecond.env
    [] ++ s.rombuf :: [idB] = [idA, idB] ∧ [idA, idB].Pairwise LineGreater ∧ Inv s ∧
    s.status.busy = false ∧ Enumerating [idA, idB] s ∧ s.status.lastdev = false ∧
    (∀ j (h : j < [idB].length), BusAnswers s.env (129 * j) [idA, idB] [idB][j]) := by
  refine ⟨rfl, by simp [lineGreater_A_B], foundState_inv _, rfl,
    witness_SearchFindsSlavesInLineOrder_next.1, rfl, ?_⟩
  intro j h
  obtain rfl : j = 0 := by simpa using h
  have hb := witness_SearchFindsSlavesInLineOrder_next.2.2.2
  rw [test_srchn.1] at hb
  exact hb

/-- InvariantHoldsAfterReset: the bounds of R8. -/
theorem witness_InvariantHoldsAfterReset :
    Config.Params.wf { Config.standard with cacheDepth := 1, passLimit := 255 } = true ∧
    Config.Params.wf { Config.standard with cacheDepth := 255, passLimit := 1 } = true ∧
    Config.Params.wf { Config.standard with cacheDepth := 0 } = false ∧
    Config.Params.wf { Config.standard with passLimit := 256 } = false := by decide

/-- ParametersAreFixed. -/
theorem witness_ParametersAreFixed : ∃ t, step State.reset = .next t := ⟨_, rfl⟩

/-- OnlySearchCommandsWriteTheSearchState: SRCHF on an empty bus clears LD. -/
theorem witness_OnlySearchCommandsWriteTheSearchState :
    Inv (foundState (envOf [.command 0x11#8])) ∧
    (∃ t, step (foundState (envOf [.command 0x11#8])) = .next t) ∧
    (stepped (.command 0x11#8) (onLine [true] (foundState Env.quiet))).ld ≠
      (foundState Env.quiet).ld :=
  ⟨foundState_inv _, ⟨_, rfl⟩, by decide⟩

/-- PollWithoutPresence, PollWithPresence, PollEventsAreEdges. -/
theorem witness_Poll :
    State.reset.events = 0x00#8 ∧ (onLine [true] State.reset).status.busy = false ∧
    (onLine [true] State.reset).env.sampleAt 0 = true ∧
    (onLine (false :: readAnswers idC) State.reset).env.sampleAt 0 = false := by decide

set_option maxRecDepth 100000 in
/-- OnlyPollWritesTheSession: a step that changes SESSION, IDV and ID. -/
theorem witness_OnlyPollWritesTheSession :
    (stepped (.command 0x20#8)
      (onLine (false :: readAnswers idC) State.reset)).status.session = true ∧
    (stepped (.command 0x20#8)
      (onLine (false :: readAnswers idC) State.reset)).idBuf ≠ State.reset.idBuf := by decide

/-- EventsStayUntilCleared, by a host write and by RST; RaisingAndClearingEvents at bits 0 and 7. -/
theorem witness_Events :
    (stepped (.access (wr .events 0x08#8)) { State.reset with events := 0x88#8 }).events.getLsbD 3
      = false ∧
    (stepped (.host 0x8208#16) { State.reset with events := 0x88#8 }).events.getLsbD 3 = false ∧
    (stepped .rst { State.reset with events := 0x88#8 }).events.getLsbD 3 = false ∧
    ({ State.reset with events := 0x88#8 } : State).events.getLsbD 3 = true ∧
    (State.raise .evPresent State.reset).events = 0x01#8 ∧
    (State.raise .errCmd State.reset).events = 0x80#8 := by decide

/-- HostWritesByRegister, the address of each clause. -/
theorem witness_HostWritesByRegister :
    ∀ a ∈ [0x01#6, 0x02#6, 0x03#6, 0x04#6, 0x05#6, 0x06#6, 0x07#6, 0x08#6, 0x09#6, 0x0A#6, 0x3F#6],
      (State.reset.withInputs [.access (.write a 1 0xFF#8)]).env.inputs =
        [.access (.write a 1 0xFF#8)] := by decide

/-- HostReadsChangeNothing: idle, busy at the bounds of the exact ranges, busy at the bounds of the
drawn ones. -/
theorem witness_HostReadsChangeNothing :
    State.reset.status.busy = false ∧ (midEnum sampling Env.quiet).status.busy = true ∧
    (∀ a ∈ [0x00#6, 0x04#6, 0x09#6, 0x0A#6, 0x0F#6, 0x18#6, 0x1F#6, 0x28#6, 0x3F#6],
      ((midEnum sampling Env.quiet).withInputs [.access (.read a 1)]).env.inputs = [.access (.read a 1)] ∧
      (a.toNat < 0x05 ∨ (0x09 ≤ a.toNat ∧ a.toNat < 0x10) ∨ (0x18 ≤ a.toNat ∧ a.toNat < 0x20) ∨
        0x28 ≤ a.toNat)) ∧
    (∀ a ∈ [0x05#6, 0x08#6, 0x10#6, 0x17#6, 0x20#6, 0x27#6],
      ((midEnum sampling Env.quiet).withInputs [.access (.read a 1)]).env.inputs = [.access (.read a 1)] ∧
      ((0x05 ≤ a.toNat ∧ a.toNat < 0x09) ∨ (0x10 ≤ a.toNat ∧ a.toNat < 0x18) ∨
        (0x20 ≤ a.toNat ∧ a.toNat < 0x28))) := by decide

/-- WindowHoldsTheRegisters: the last entry and the first value that selects none. -/
theorem witness_WindowHoldsTheRegisters :
    ({ State.reset with csel := 7#8 } : State).cache[7]? = some zeroIdent ∧
    Inv { foundState Env.quiet with csel := 8#8 } ∧ Config.standard.cacheDepth ≤ (8#8).toNat :=
  ⟨by decide, have h := foundState_inv Env.quiet
    ⟨h.params, h.ld, h.ccount, h.busy, h.idleReleased, h.idValid, h.ctrl, h.cacheValid,
      h.cacheLength, h.lastzero, h.passes, h.apt, fun _ _ _ hs => nomatch hs⟩, by decide⟩

/-- OtherWidthsAreRefused. -/
theorem witness_OtherWidthsAreRefused :
    (State.reset.withInputs [.access (.read 0x00#6 2)]).env.inputs = [.access (.read 0x00#6 2)] ∧
    (State.reset.withInputs [.access (.write 0x00#6 0 0x01#8)]).env.inputs =
      [.access (.write 0x00#6 0 0x01#8)] := by decide

/-- NominalLineTimeOfEachCommand, the premise of each clause that the witnesses above do not show. -/
theorem witness_NominalLineTimeOfEachCommand :
    (onLine [true] armed).params = Config.standard ∧ armed.status.lastdev = false ∧
    (onLine [true] armed).status.busy = false ∧ (onLine [true] armed).status.arm = true ∧
    (onLine [true] armed).env.sampleAt 0 = true ∧ (onLine [false] armed).env.sampleAt 0 = false := by
  decide

end Sys2Proof.Tests
end

section
/-!
PROOFS. The parameters of the block (spec/00_scope.md R7, R8): their values after reset, and that no
step changes them. One frame lemma for each operation, in the order of the definitions.
-/

namespace Sys2Proof.Machine

/-- Settles O8: reset installs `Config.standard`, whose durations the line forms write out. -/
theorem parametersAfterResetAreR7s : Obligations.ParametersAfterResetAreR7s :=
  ⟨rfl, rfl, fun b => ⟨rfl, by cases b <;> rfl, rfl⟩⟩

/-! ### Shared operations keep the parameters -/

@[simp] theorem State.raiseIf_params (c : Bool) (e : Event) (s : State) :
    (s.raiseIf c e).params = s.params := by cases c <;> rfl

@[simp] theorem State.reject_params (s : State) : s.reject.params = s.params := rfl

@[simp] theorem State.accept_params (op : Instr) (o : Origin) (s : State) :
    (s.accept op o).params = s.params := rfl

@[simp] theorem State.finish_params (op : Instr) (o : Origin) (s : State) :
    (s.finish op o).params = s.params := by cases o <;> rfl

@[simp] theorem State.dispatch_params (v : Byte) (s : State) :
    (s.dispatch v).params = s.params := by
  unfold State.dispatch
  split
  · rfl
  · split
    · rfl
    · split <;> rfl

@[simp] theorem State.blockReset_params (s : State) : s.blockReset.params = s.params := rfl

@[simp] theorem State.elapse_params (us : Nat) (s : State) : (s.elapse us).params = s.params := rfl

@[simp] theorem State.goto_params (op : Instr) (o : Origin) (todo : List Prim) (pt : Point)
    (s : State) : (s.goto op o todo pt).params = s.params := rfl

/-- The dispatcher adds nothing to what a command's pseudocode does to the parameters. -/
theorem hostCommand_params (i : Instr) (body : State → State) (s : State)
    (h : ∀ u : State, (body u).params = u.params) : (hostCommand i body s).params = s.params := by
  unfold hostCommand
  split
  · rfl
  · split
    · rw [State.finish_params, h, State.accept_params]
    · rfl

/-! ### Line routines keep the parameters -/

@[simp] theorem State.writeBit_params (b : Bool) (s : State) :
    (s.writeBit b).params = s.params := by rw [State.writeBit_eq]

@[simp] theorem State.readBit_params (s : State) : s.readBit.1.params = s.params := by
  rw [State.readBit_eq]

@[simp] theorem State.resetPresence_params (s : State) : s.resetPresence.params = s.params := by
  rw [State.resetPresence_eq]

@[simp] theorem State.writeByte_params (v : Byte) (s : State) :
    (s.writeByte v).params = s.params := by rw [State.writeByte_eq]

@[simp] theorem State.readByte_params (s : State) : s.readByte.1.params = s.params := by
  rw [State.readByte_state]

@[simp] theorem State.romPut_params (b : RomTarget) (i : Nat) (v : Byte) (s : State) :
    (s.romPut b i v).params = s.params := by cases b <;> rfl

@[simp] theorem State.romSet_params (b : RomTarget) (buf : Ident) (s : State) :
    (s.romSet b buf).params = s.params := by cases b <;> rfl

@[simp] theorem State.readRom_params (b : RomTarget) (s : State) :
    (s.readRom b).params = s.params := by
  obtain ⟨buf, -, hs⟩ := State.readRom_spec b s
  rw [hs, State.romSet_params]

@[simp] theorem State.perform_params (p : Prim) (s : State) :
    (s.perform p).1.params = s.params := by cases p <;> rfl

/-! ### What the commands decide keeps the parameters -/

@[simp] theorem State.resetOutcome_params (s : State) : s.resetOutcome.params = s.params := by
  unfold State.resetOutcome; split <;> rfl

@[simp] theorem State.rdromOutcome_params (s : State) : s.rdromOutcome.params = s.params := by
  rw [State.rdromOutcome, State.raiseIf_params]

@[simp] theorem State.removed_params (s : State) : s.removed.params = s.params := by
  unfold State.removed; split <;> rfl

@[simp] theorem State.present_params (s : State) : s.present.params = s.params := by
  unfold State.present; split <;> rfl

@[simp] theorem State.adopt_params (s : State) : s.adopt.params = s.params := by
  unfold State.adopt; split <;> rfl

@[simp] theorem State.pollOutcome_params (s : State) : s.pollOutcome.params = s.params := by
  unfold State.pollOutcome; split <;> simp

/-! ### Search passes and enumerations keep the parameters -/

@[simp] theorem State.abortConflict_params (s : State) : s.abortConflict.params = s.params := rfl

@[simp] theorem State.abortNoPres_params (s : State) : s.abortNoPres.params = s.params := rfl

@[simp] theorem State.reportCrc_params (r : PassResult) (s : State) :
    (s.reportCrc r).params = s.params := State.raiseIf_params _ _ s

@[simp] theorem State.insertRom_params (s : State) : s.insertRom.params = s.params := by
  unfold State.insertRom; split <;> rfl

@[simp] theorem State.takeBranch_params (n : Nat) (a b : Bool) (s : State) :
    (s.takeBranch n a b).1.params = s.params := by
  unfold State.takeBranch
  split
  · rfl
  · split <;> rfl

@[simp] theorem State.stepBit_params (n : Nat) (s : State) :
    (s.stepBit n).1.params = s.params := by
  unfold State.stepBit
  dsimp only
  split <;> simp

@[simp] theorem searchBits_params (k n : Nat) (s : State) :
    (searchBits k n s).1.params = s.params := by
  induction k generalizing n s with
  | zero => rfl
  | succ k ih => rw [searchBits]; split <;> simp [ih]

@[simp] theorem State.searchPass_params (s : State) : s.searchPass.1.params = s.params := by
  unfold State.searchPass
  dsimp only
  split <;> simp

@[simp] theorem State.onePass_params (s : State) : s.onePass.params = s.params := by
  rw [State.onePass, State.reportCrc_params, State.searchPass_params]

@[simp] theorem enumLoop_params (k : Nat) (s : State) : (enumLoop k s).params = s.params := by
  induction k generalizing s with
  | zero => rfl
  | succ k ih =>
    rw [enumLoop]
    split
    · rfl
    · dsimp only
      split <;> simp [ih]

@[simp] theorem runEnum_params (s : State) : (runEnum s).params = s.params := by
  rw [runEnum, enumLoop_params]

/-! ### Commands run whole keep the parameters -/

@[simp] theorem commandBody_params (i : Instr) (s : State) :
    (commandBody i s).params = s.params := by
  cases i with
  | reset => simp [commandBody, resetBody]
  | wbit => simp [commandBody, wbitBody]
  | rbit => simp [commandBody, rbitBody]
  | wbyte => simp [commandBody, wbyteBody]
  | rbyte => simp [commandBody, rbyteBody]
  | crcb => rfl
  | rdrom => simp [commandBody, rdromBody]
  | srchf => simp [commandBody, srchfBody]
  | srchn => rw [commandBody, srchnBody]; split <;> simp
  | enum => simp [commandBody, enumBody]
  | enumc => simp [commandBody, enumcBody]
  | poll => rw [commandBody, pollBody]; split <;> simp

/-- A command run whole, accepted or rejected, leaves the parameters alone. -/
theorem exec_params {i : Instr} {s t : State} (h : exec i s = .next t) : t.params = s.params := by
  rw [exec_eq_hostCommand] at h
  cases h
  exact hostCommand_params i _ s (commandBody_params i)

/-! ### Sequencer steps keep the parameters -/

@[simp] theorem State.beginPass_params (op : Instr) (o : Origin) (s : State) :
    (s.beginPass op o).params = s.params := rfl

@[simp] theorem State.beginCommand_params (op : Instr) (o : Origin) (s : State) :
    (s.beginCommand op o).params = s.params := by
  cases op with
  | srchn => rw [State.beginCommand]; split <;> rfl
  | _ => rfl

@[simp] theorem State.afterPresence_params (op : Instr) (o : Origin) (s : State) :
    (s.afterPresence op o).params = s.params := by
  cases op with
  | reset => simp [State.afterPresence]
  | srchf | srchn | enum | enumc => rw [State.afterPresence]; split <;> simp
  | poll => rw [State.afterPresence]; split <;> simp
  | wbit | rbit | wbyte | rbyte | crcb | rdrom => rfl

@[simp] theorem State.afterRom_params (op : Instr) (o : Origin) (s : State) :
    (s.afterRom op o).params = s.params := by
  unfold State.afterRom; split <;> simp

@[simp] theorem State.afterPair_params (op : Instr) (o : Origin) (n : Nat) (a b : Bool) (s : State) :
    (s.afterPair op o n a b).params = s.params := by
  unfold State.afterPair; split <;> simp

@[simp] theorem State.afterPass_params (op : Instr) (o : Origin) (r : PassResult) (s : State) :
    (s.afterPass op o r).params = s.params := by
  unfold State.afterPass
  split
  · split <;> simp
  · simp

@[simp] theorem State.enumHead_params (op : Instr) (o : Origin) (s : State) :
    (s.enumHead op o).params = s.params := by
  unfold State.enumHead; split <;> simp

@[simp] theorem State.resume_params (op : Instr) (o : Origin) (got : List Bool) (pt : Point)
    (s : State) : (s.resume op o got pt).params = s.params := by
  cases pt with
  | romByte i => rw [State.resume]; split <;> simp
  | written n => rw [State.resume]; split <;> simp
  | _ => simp [State.resume]

@[simp] theorem State.seqStep_params (s : State) : s.seqStep.params = s.params := by
  unfold State.seqStep
  split
  · split <;> rfl
  · split <;> simp

/-! ### Host accesses keep the parameters -/

@[simp] theorem State.memRead_params (a : Addr) (s : State) :
    (s.memRead a).2.params = s.params := by
  unfold State.memRead
  dsimp only
  split <;> rfl

@[simp] theorem State.memWrite_params (r : Reg) (v : Byte) (s : State) :
    (s.memWrite r v).params = s.params := by
  cases r with
  | cmd => exact State.dispatch_params v s
  | data | crc => rw [State.memWrite]; split <;> rfl
  | _ => rfl

theorem State.hostAccess_params {acc : HostAccess} {s t : State} (h : s.hostAccess acc = .next t) :
    t.params = s.params := by
  cases acc with
  | read a width =>
    rw [State.hostAccess] at h
    split at h
    · cases h
      exact State.memRead_params a s
    · cases h
  | write a width v =>
    rw [State.hostAccess] at h
    split at h
    · cases h
      exact State.memWrite_params _ v s
    · cases h

theorem State.hostWord_params {w : HostWord} {s t : State} (h : s.hostWord w = .next t) :
    t.params = s.params := by
  unfold State.hostWord at h
  split at h
  · exact State.hostAccess_params h
  · cases h

/-! ### Every step keeps the parameters -/

theorem State.command_params {v : Byte} {s t : State} (h : s.command v = .next t) :
    t.params = s.params := by
  unfold State.command at h
  split at h
  · exact exec_params h
  · cases h
    exact State.reject_params s

theorem State.takeInput_params {inp : Input} {s t : State} (h : s.takeInput inp = .next t) :
    t.params = s.params := by
  cases inp with
  | seq => cases h; exact State.seqStep_params s
  | access a => exact State.hostAccess_params h
  | host w => exact State.hostWord_params h
  | command v => exact State.command_params h
  | rst => cases h; exact State.blockReset_params s
  | elapse us => cases h; exact State.elapse_params us s

/-- Settles O9, by cases on what the step takes: no input (the sequencer moves) or the next input. -/
theorem parametersAreFixed : Obligations.ParametersAreFixed := by
  intro s t h
  unfold step at h
  split at h
  · cases h
    exact State.seqStep_params s
  · rw [State.takeInput_params h, State.withInputs_params]

end Sys2Proof.Machine
end

section
/-!
PROOFS. The state of the block (spec/10_state.md): STATUS as a byte (R24), the values block reset
leaves (R44), and the invariant of R45. Between two line primitives a running command has BUSY = 1
and the line released; `Running` says so together with the invariant's clauses about registers and
counters. Each assignment of the pseudocode keeps it, once for both grains: a command run whole
(`exec`) and the sequencer step by step.
-/

namespace Sys2Proof.Machine

/-! ### The STATUS byte (R24) -/

/-- A flag is one bit of its byte. -/
theorem getLsbD_bitAt (i j : Nat) (b : Bool) (hi : i < 8) :
    (bitAt i b).getLsbD j = if j = i then b else false := by
  simpa [setBit] using getLsbD_setBit 0#8 i j b hi

/-- Settles O53: each flag of the disjunction reaches its own bit only. -/
theorem statusByteLayout : Obligations.StatusByteLayout := by
  intro st
  simp only [Status.byte, BitVec.getLsbD_or]
  simp +decide only [getLsbD_bitAt, if_true, if_false, Bool.or_false, Bool.false_or, and_self]

/-! ### The values block reset leaves (R44) -/

theorem zeroIdent_getElem (i : Fin 8) : zeroIdent[i] = 0x00#8 := by simp [zeroIdent]

/-- Settles O10: the scalar values are those `State.initial` writes out; the buffers and the cache
entries are all-zero. -/
theorem resetLeavesTheTableOfValues : Obligations.ResetLeavesTheTableOfValues := by
  refine ⟨fun p e => ?_, rfl⟩
  have cacheZero : ∀ x ∈ (State.initial p e).cache, ∀ i : Fin 8, x[i] = 0x00#8 := by
    intro x hx
    rw [List.eq_of_mem_replicate hx]
    exact zeroIdent_getElem
  have statusZero : (State.initial p e).status.byte = 0x00#8 := by
    simp [State.initial, Status.byte, bitAt]
  exact ⟨rfl, statusZero, rfl, rfl, rfl, rfl, rfl, rfl, rfl, rfl, zeroIdent_getElem,
    zeroIdent_getElem, rfl, rfl, rfl, zeroIdent_getElem, List.length_replicate, cacheZero, rfl, rfl⟩

/-- Block reset establishes the invariant: no flag, counter or position is set. -/
theorem State.initial_inv (p : Config.Params) (e : Env) (hp : p.wf = true) :
    Inv (State.initial p e) where
  params := hp
  ld := Nat.zero_le _
  ccount := Nat.zero_le _
  busy := by simp [State.initial]
  idleReleased _ := rfl
  idValid h := nomatch h
  ctrl := BitVec.zero_and
  cacheValid _ _ h := absurd h (Nat.not_lt_zero _)
  cacheLength := List.length_replicate
  lastzero := Nat.zero_le _
  passes := Nat.zero_le _
  apt := Nat.zero_le _
  pos _ _ _ h := nomatch h

/-- Settles O12: every clause is about a value of R44's table. -/
theorem invariantHoldsAfterReset : Obligations.InvariantHoldsAfterReset := State.initial_inv

/-! ### The line protocol of the stretches (R102, R128) -/

/-- A stretch that ends with the line released can be followed by another. -/
theorem primsOk_append {d : Drive} {ps qs : List Prim} (hp : primsOk d ps)
    (hq : primsOk .released qs) : primsOk d (ps ++ qs) := by
  induction ps generalizing d with
  | nil =>
    obtain rfl : d = .released := hp
    exact hq
  | cons p ps ih =>
    cases p with
    | low t => exact ih (d := .low) hp
    | rel t => exact ih (d := .released) hp
    | smp => exact ⟨hp.1, ih hp.2⟩

theorem primsOk_flatMap {f : Nat → List Prim} (l : List Nat) (h : ∀ i, primsOk .released (f i)) :
    primsOk .released (l.flatMap f) := by
  induction l with
  | nil => exact rfl
  | cons i l ih => exact primsOk_append (h i) ih

theorem primsOk_resetPrims (p : Config.Params) : primsOk .released (resetPrims p) := ⟨rfl, rfl⟩

theorem primsOk_writeBitPrims (p : Config.Params) (b : Bool) :
    primsOk .released (writeBitPrims p b) := by cases b <;> exact rfl

theorem primsOk_readBitPrims (p : Config.Params) :
    primsOk .released (readBitPrims p) := ⟨rfl, rfl⟩

theorem primsOk_writeBytePrims (p : Config.Params) (v : Byte) :
    primsOk .released (writeBytePrims p v) :=
  primsOk_flatMap _ fun _ => primsOk_writeBitPrims p _

theorem primsOk_readBytePrims (p : Config.Params) : primsOk .released (readBytePrims p) :=
  primsOk_flatMap _ fun _ => primsOk_readBitPrims p

theorem primsOk_pairPrims (p : Config.Params) : primsOk .released (pairPrims p) :=
  primsOk_append (primsOk_readBitPrims p) (primsOk_readBitPrims p)

theorem primsOk_romPrims (p : Config.Params) : primsOk .released (romPrims p) :=
  primsOk_append (primsOk_writeBytePrims p _) (primsOk_readBytePrims p)

/-- A primitive takes the line from one point of the protocol to the next. -/
theorem primsOk_perform {s : State} {p : Prim} {ps : List Prim} (h : primsOk s.drv (p :: ps)) :
    primsOk (s.perform p).1.drv ps := by
  cases p with
  | low t | rel t => exact h
  | smp => exact h.2

/-! ### A running command between two line primitives -/

/-- A command is running and the line is released; the registers and counters are as `Inv` says. -/
structure Running (s : State) : Prop where
  params : s.params.wf = true
  ld : s.ld.toNat ≤ 64
  ccount : s.ccount.toNat ≤ s.params.cacheDepth
  busy : s.status.busy = true
  released : s.drv = .released
  idValid : s.status.idv = true → validRom s.idBuf = true
  ctrl : s.ctrl &&& 0xFC#8 = 0x00#8
  cacheValid : ∀ (e : Nat) (x : Ident),
    e < s.ccount.toNat → s.cache[e]? = some x → validRom x = true
  cacheLength : s.cache.length = s.params.cacheDepth
  lastzero : s.lastzero ≤ 64
  passes : s.passes ≤ s.params.passLimit
  apt : s.apt ≤ s.params.tPoll

/-- Acceptance at `Idle` (R77). -/
theorem Inv.accept {s : State} (h : Inv s) (hi : s.seq = .idle) (op : Instr) (o : Origin) :
    Running (s.accept op o) := { h with busy := rfl, released := h.idleReleased hi }

/-- A running command with no primitive left to perform has the line released (R128). -/
theorem Inv.running {s : State} {op : Instr} {o : Origin} {got : List Bool} {pt : Point}
    (h : Inv s) (hs : s.seq = .run op o { todo := [], got := got, next := pt }) : Running s :=
  { h with
    busy := h.busy.mpr (by simp [hs])
    released := (h.pos _ _ _ hs).line }

theorem Inv.idle_of_not_busy {s : State} (h : Inv s) (hb : ¬ s.status.busy = true) :
    s.seq = .idle := Decidable.not_not.mp (mt h.busy.mpr hb)

/-! ### Assignments of the pseudocode keep a command running -/

theorem Running.raise {s : State} (h : Running s) (e : Event) : Running (s.raise e) := { h with }

theorem Running.raiseIf {s : State} (h : Running s) (c : Bool) (e : Event) :
    Running (s.raiseIf c e) := by
  cases c
  · exact h
  · exact h.raise e

theorem Running.disarm {s : State} (h : Running s) : Running s.disarm := { h with }

theorem Running.setPresence {s : State} (h : Running s) (b : Bool) : Running (s.setPresence b) :=
  { h with }

theorem Running.putBit {s : State} (h : Running s) (b : Bool) : Running (s.putBit b) := { h with }

theorem Running.putByte {s : State} (h : Running s) (v : Byte) : Running (s.putByte v) := { h with }

theorem Running.crcbBody {s : State} (h : Running s) : Running (crcbBody s) := { h with }

theorem Running.romPut {s : State} (h : Running s) (b : RomTarget) (i : Nat) (v : Byte) :
    Running (s.romPut b i v) := by
  cases b <;> exact { h with }

theorem Running.romSet {s : State} (h : Running s) (b : RomTarget) (buf : Ident) :
    Running (s.romSet b buf) := by
  cases b <;> exact { h with }

theorem Running.resetOutcome {s : State} (h : Running s) : Running s.resetOutcome := by
  unfold State.resetOutcome
  split
  · exact { h with }
  · exact h.raise _

theorem Running.rdromOutcome {s : State} (h : Running s) : Running s.rdromOutcome := by
  have h' : Running { s with status := { s.status with crcok := validRom s.rombuf } } := { h with }
  exact h'.raiseIf _ _

/-- A removal clears IDV or leaves it (R185). -/
theorem Running.removed {s : State} (h : Running s) : Running s.removed := by
  unfold State.removed
  split
  · exact { h with
      idValid := fun hi => by
        dsimp only at hi
        split at hi
        · cases hi
        · exact h.idValid hi }
  · exact h

theorem Running.present {s : State} (h : Running s) : Running s.present := by
  unfold State.present
  split
  · exact h
  · exact { h with }

/-- ID takes a CRC-valid buffer or nothing (R187, R188). -/
theorem Running.pollOutcome {s : State} (h : Running s) : Running s.pollOutcome := by
  unfold State.pollOutcome
  split
  · rename_i hv
    unfold State.adopt
    split
    · exact h
    · exact { h with idValid := fun _ => hv }
  · exact h.raise _

theorem Running.clearSearch {s : State} (h : Running s) : Running s.clearSearch :=
  { h with ld := Nat.zero_le _ }

theorem Running.clearSok {s : State} (h : Running s) : Running s.clearSok := { h with }

theorem Running.recordBit {s : State} (h : Running s) (n : Nat) (d : Bool) :
    Running (s.recordBit n d) := { h with }

theorem Running.clearLastzero {s : State} (h : Running s) :
    Running { s with lastzero := 0 } := { h with lastzero := Nat.zero_le _ }

/-- The last-zero marker is a position of the pass (R154). -/
theorem Running.takeBranch {s : State} (h : Running s) {n : Nat} (hn : n ≤ 64) (a b : Bool) :
    Running (s.takeBranch n a b).1 := by
  unfold State.takeBranch
  split
  · exact h
  · split
    · exact { h with lastzero := hn }
    · exact h

/-- LD takes the last-zero marker (R156). -/
theorem Running.completePass {s : State} (h : Running s) : Running s.completePass :=
  { h with
    ld := by
      rw [State.completePass_ld, BitVec.toNat_ofNat]
      exact (Nat.mod_le _ _).trans h.lastzero }

theorem Running.abortNoPres {s : State} (h : Running s) : Running s.abortNoPres :=
  { h with ld := Nat.zero_le _ }

theorem Running.abortConflict {s : State} (h : Running s) : Running s.abortConflict :=
  h.abortNoPres.raise _

theorem Running.reportCrc {s : State} (h : Running s) (r : PassResult) : Running (s.reportCrc r) :=
  h.raiseIf _ _

/-! ### Enumerations: the cache and the count of passes -/

theorem cacheDepth_le_of_wf {p : Config.Params} (h : p.wf = true) : p.cacheDepth ≤ 255 := by
  simp only [Config.Params.wf, Bool.and_eq_true, decide_eq_true_eq] at h
  exact h.1.1.2

theorem Running.emptyCache {s : State} (h : Running s) : Running s.emptyCache :=
  { h with
    ccount := Nat.zero_le _
    cacheValid := fun _ _ he => absurd he (Nat.not_lt_zero _) }

theorem Running.clearPasses {s : State} (h : Running s) :
    Running { s with passes := 0 } := { h with passes := Nat.zero_le _ }

/-- The head of the loop lets a pass run only with room in the cache and a pass left (R163). -/
theorem State.not_enumStops {s : State} (h : ¬ s.enumStops = true) :
    s.ccount.toNat ≠ s.params.cacheDepth ∧ s.passes ≠ s.params.passLimit := by
  simp only [State.enumStops, Bool.or_eq_true, beq_iff_eq, not_or] at h
  exact ⟨h.1.2, h.2⟩

/-- "CCOUNT < CACHE_DEPTH always holds at this point" (R160). -/
theorem Running.room {s : State} (h : Running s) (hs : ¬ s.enumStops = true) :
    s.ccount.toNat < s.params.cacheDepth :=
  Nat.lt_of_le_of_ne h.ccount (State.not_enumStops hs).1

theorem Running.countPass {s : State} (h : Running s) (hs : ¬ s.enumStops = true) :
    Running { s with passes := s.passes + 1 } :=
  { h with passes := Nat.lt_of_le_of_ne h.passes (State.not_enumStops hs).2 }

/-- `Insert()` after a completed pass, with room for one more entry (R160). -/
theorem Running.insertRom {s : State} (h : Running s)
    (hc : s.status.crcok = validRom s.rombuf) (hr : s.ccount.toNat < s.params.cacheDepth) :
    Running s.insertRom := by
  unfold State.insertRom
  split
  · rename_i hok
    have hdepth := cacheDepth_le_of_wf h.params
    have hcount : (s.ccount + 1).toNat = s.ccount.toNat + 1 :=
      BitVec.toNat_add_of_lt (show s.ccount.toNat + 1 < 256 by omega)
    exact { h with
      ccount := by rw [hcount]; exact hr
      cacheLength := by simp [h.cacheLength]
      cacheValid := fun e x he hx => by
        rw [hcount] at he
        rcases Nat.lt_succ_iff_lt_or_eq.mp he with hlt | rfl
        · rw [List.getElem?_set_ne hlt.ne'] at hx
          exact h.cacheValid e x hlt hx
        · rw [List.getElem?_set_self (h.cacheLength ▸ hr)] at hx
          cases hx
          exact hc ▸ hok }
  · exact h.raise _

/-! ### Line routines keep a command running -/

/-- Whole stretches of line activity end with the line released (R128). -/
theorem Running.afterLine {s : State} (h : Running s) (k : Nat) (ps : List Phase) :
    Running (s.afterLine k ps) := { h with released := rfl }

theorem Running.writeBit {s : State} (h : Running s) (b : Bool) : Running (s.writeBit b) :=
  s.writeBit_eq b ▸ h.afterLine _ _

theorem Running.readBit {s : State} (h : Running s) : Running s.readBit.1 :=
  s.readBit_eq ▸ h.afterLine _ _

theorem Running.writeByte {s : State} (h : Running s) (v : Byte) : Running (s.writeByte v) :=
  s.writeByte_eq v ▸ h.afterLine _ _

theorem Running.readByte {s : State} (h : Running s) : Running s.readByte.1 :=
  s.readByte_state ▸ h.afterLine _ _

theorem Running.resetPresence {s : State} (h : Running s) : Running s.resetPresence := by
  rw [State.resetPresence_eq]
  exact { h with released := rfl }

theorem Running.readRom {s : State} (h : Running s) (b : RomTarget) : Running (s.readRom b) := by
  obtain ⟨buf, -, hs⟩ := s.readRom_spec b
  rw [hs]
  exact (h.afterLine _ _).romSet b buf

/-! ### A search pass run whole (R152 to R158) -/

theorem Running.stepBit {s : State} (h : Running s) {n : Nat} (hn : n ≤ 64) :
    Running (s.stepBit n).1 := by
  unfold State.stepBit
  dsimp only
  split
  · exact h.readBit.readBit
  · exact ((h.readBit.readBit.takeBranch hn _ _).recordBit _ _).writeBit _

theorem Running.searchBits {k n : Nat} {s : State} (h : Running s) (hn : n + k ≤ 65) :
    Running (searchBits k n s).1 := by
  induction k generalizing n s with
  | zero => exact h.completePass
  | succ k ih =>
    have hstep := h.stepBit (n := n) (by omega)
    rw [Machine.searchBits]
    split
    · exact ih hstep (by omega)
    · exact hstep.abortConflict

theorem Running.searchPass {s : State} (h : Running s) : Running s.searchPass.1 := by
  unfold State.searchPass
  dsimp only
  split
  · exact (h.clearSok.resetPresence.writeByte _).clearLastzero.searchBits (by decide)
  · exact h.clearSok.resetPresence.abortNoPres

theorem Running.onePass {s : State} (h : Running s) : Running s.onePass := h.searchPass.reportCrc _

/-- When the position loop completes, CRCOK is the check of ROMBUF (R156). -/
theorem searchBits_checked {k n : Nat} {s : State} (h : (searchBits k n s).2 = .ok) :
    (searchBits k n s).1.status.crcok = validRom (searchBits k n s).1.rombuf := by
  induction k generalizing n s with
  | zero => rfl
  | succ k ih =>
    rw [searchBits] at h ⊢
    split at h
    · rename_i hc
      rw [if_pos hc]
      exact ih h
    · cases h

theorem State.searchPass_checked {s : State} (h : s.searchPass.2 = .ok) :
    s.searchPass.1.status.crcok = validRom s.searchPass.1.rombuf := by
  unfold State.searchPass at h ⊢
  dsimp only at h ⊢
  split at h
  · rename_i hp
    rw [if_pos hp]
    exact searchBits_checked h
  · cases h

/-! A search pass does not count cache entries. -/

@[simp] theorem State.takeBranch_ccount (n : Nat) (a b : Bool) (s : State) :
    (s.takeBranch n a b).1.ccount = s.ccount := by
  unfold State.takeBranch
  split
  · rfl
  · split <;> rfl

@[simp] theorem State.stepBit_ccount (n : Nat) (s : State) :
    (s.stepBit n).1.ccount = s.ccount := by
  unfold State.stepBit
  dsimp only
  split <;> simp [State.writeBit_eq, State.readBit_eq]

@[simp] theorem searchBits_ccount (k n : Nat) (s : State) :
    (searchBits k n s).1.ccount = s.ccount := by
  induction k generalizing n s with
  | zero => rfl
  | succ k ih =>
    rw [searchBits]
    split
    · rw [ih, State.stepBit_ccount]
    · exact State.stepBit_ccount n s

@[simp] theorem State.searchPass_ccount (s : State) : s.searchPass.1.ccount = s.ccount := by
  unfold State.searchPass
  dsimp only
  split
  · simp [State.writeByte_eq, State.resetPresence_eq]
  · simp [State.abortNoPres, State.resetPresence_eq]

/-! ### Commands run whole keep the invariant -/

theorem Running.enumLoop {k : Nat} {s : State} (h : Running s) : Running (enumLoop k s) := by
  induction k generalizing s with
  | zero => exact h
  | succ k ih =>
    rw [Machine.enumLoop]
    split
    · exact h
    · rename_i hs
      have hpass := (h.countPass hs).searchPass
      dsimp only
      split
      · rename_i hok
        have hroom := h.room hs
        exact ih (hpass.insertRom (State.searchPass_checked hok) (by simpa using hroom))
      · exact hpass

theorem Running.runEnum {s : State} (h : Running s) : Running (runEnum s) := h.clearPasses.enumLoop

/-- The pseudocode of a command run whole (R75). -/
theorem Running.commandBody {s : State} (h : Running s) (i : Instr) :
    Running (commandBody i s) := by
  cases i with
  | reset => exact h.resetPresence.resetOutcome
  | wbit => exact h.disarm.writeBit s.wbitOperand
  | rbit => exact h.disarm.readBit.putBit _
  | wbyte => exact h.disarm.writeByte s.byteOperand
  | rbyte => exact h.disarm.readByte.putByte _
  | crcb => exact h.crcbBody
  | rdrom => exact (h.disarm.readRom .rombuf).rdromOutcome
  | srchf => exact h.clearSearch.onePass
  | srchn =>
    rw [Machine.commandBody, srchnBody]
    split
    · exact h.clearSok
    · exact h.onePass
  | enum => exact h.clearSearch.emptyCache.runEnum
  | enumc => exact h.emptyCache.runEnum
  | poll =>
    rw [Machine.commandBody, pollBody]
    split
    · exact (h.resetPresence.present.readRom .pbuf).pollOutcome
    · exact h.resetPresence.removed

/-- An event bit is no part of the invariant (R201). -/
theorem Inv.raise {s : State} (h : Inv s) (e : Event) : Inv (s.raise e) :=
  { h with pos := fun op o pos hs => { h.pos op o pos hs with } }

theorem Inv.reject {s : State} (h : Inv s) : Inv s.reject := h.raise _

/-- The end of a command: BUSY falls as the sequencer returns to `Idle`, with the line released
(R80). -/
theorem Running.finish {s : State} (h : Running s) (op : Instr) (o : Origin) :
    Inv (s.finish op o) := by
  have hidle : Inv (s.finish op .auto) :=
    { h with
      busy := by simp [State.finish_auto]
      idleReleased := fun _ => h.released
      apt := by
        rw [State.finish_auto]
        dsimp only
        split
        · exact Nat.zero_le _
        · exact h.apt
      pos := fun _ _ _ hs => nomatch hs }
  cases o with
  | host => exact hidle.raise .evDone
  | auto => exact hidle

theorem Inv.exec {s t : State} {i : Instr} (h : Inv s) (ht : exec i s = .next t) : Inv t := by
  rw [exec_eq_hostCommand] at ht
  cases ht
  unfold hostCommand
  split
  · exact h.reject
  · rename_i hb
    split
    · exact ((h.accept (h.idle_of_not_busy hb) i .host).commandBody i).finish i .host
    · exact h.reject

/-! ### From one point of the pseudocode to the next (R36) -/

/-- A command goes on with a stretch that keeps the line protocol. -/
theorem Running.goto {s : State} {op : Instr} {o : Origin} {todo : List Prim} {pt : Point}
    (h : Running s) (hp : PosInv op { todo := todo, got := [], next := pt } s) :
    Inv (s.goto op o todo pt) :=
  { h with
    busy := iff_of_true h.busy (by simp [State.goto])
    idleReleased := fun hs => nomatch hs
    pos := fun _ _ _ hs => by
      cases hs
      exact { hp with } }

theorem Point.position_eq_zero {pt : Point} (h : pt.inPass = false) : pt.position = 0 := by
  cases pt with
  | pair n | written n => cases h
  | _ => rfl

/-- Outside a search pass the next point needs no more than the line protocol. -/
theorem Running.goto_outside {s : State} {op : Instr} {o : Origin} {todo : List Prim} {pt : Point}
    (h : Running s) (line : primsOk .released todo) (own : pt.belongsTo op = true)
    (outside : pt.inPass = false) : Inv (s.goto op o todo pt) :=
  h.goto
    { line := by rw [h.released]; exact line
      position := by rw [Point.position_eq_zero outside]; exact Nat.zero_le _
      own := own
      room := fun _ hin => absurd (outside.symm.trans hin) Bool.false_ne_true
      checked := fun hpt => by
        obtain rfl : pt = .passDone .ok := hpt
        cases outside }

theorem Running.goto_finish {s : State} {op : Instr} {o : Origin} (h : Running s) :
    Inv (s.goto op o [] .finish) := h.goto_outside rfl rfl rfl

/-- An enumeration has room for one more cache entry (R160). -/
def HasRoom (op : Instr) (s : State) : Prop :=
  op = .enum ∨ op = .enumc → s.ccount.toNat < s.params.cacheDepth

theorem hasRoom_of_ne {op : Instr} (s : State) (h1 : op ≠ .enum) (h2 : op ≠ .enumc) :
    HasRoom op s := fun hop => (hop.elim h1 h2).elim

/-- Inside a pass an enumeration has room, and the position stays in 1..64 (R84, R160). -/
theorem Running.goto_inside {s : State} {op : Instr} {o : Origin} {todo : List Prim} {pt : Point}
    (h : Running s) (room : HasRoom op s) (line : primsOk .released todo)
    (own : pt.belongsTo op = true) (position : pt.position ≤ 64)
    (checked : pt = .passDone .ok → s.status.crcok = validRom s.rombuf := by nofun) :
    Inv (s.goto op o todo pt) :=
  h.goto
    { line := by rw [h.released]; exact line
      position := position
      own := own
      room := fun hop _ => room hop
      checked := checked }

/-! ### The sequencer's steps at the points of the pseudocode -/

theorem Running.beginPass {s : State} {op : Instr} {o : Origin} (h : Running s)
    (own : Point.presence.belongsTo op = true) (room : HasRoom op s) : Inv (s.beginPass op o) :=
  h.clearSok.disarm.goto_inside room (primsOk_resetPrims _) own (Nat.zero_le _)

theorem Running.beginCommand {s : State} {op : Instr} {o : Origin} (h : Running s) :
    Inv (s.beginCommand op o) := by
  cases op with
  | reset =>
    exact h.goto_inside (hasRoom_of_ne s (by decide) (by decide)) (primsOk_resetPrims _) rfl
      (Nat.zero_le _)
  | wbit => exact h.disarm.goto_outside (primsOk_writeBitPrims _ _) rfl rfl
  | rbit => exact h.disarm.goto_outside (primsOk_readBitPrims _) rfl rfl
  | wbyte => exact h.disarm.goto_outside (primsOk_writeBytePrims _ _) rfl rfl
  | rbyte => exact h.disarm.goto_outside (primsOk_readBytePrims _) rfl rfl
  | crcb => exact h.crcbBody.goto_finish
  | rdrom => exact h.disarm.goto_outside (primsOk_romPrims _) rfl rfl
  | srchf => exact h.clearSearch.beginPass rfl (hasRoom_of_ne _ (by decide) (by decide))
  | srchn =>
    rw [State.beginCommand]
    split
    · exact h.clearSok.goto_finish
    · exact h.beginPass rfl (hasRoom_of_ne s (by decide) (by decide))
  | enum => exact h.clearSearch.emptyCache.clearPasses.goto_outside rfl rfl rfl
  | enumc => exact h.emptyCache.clearPasses.goto_outside rfl rfl rfl
  | poll =>
    exact h.disarm.goto_inside (hasRoom_of_ne _ (by decide) (by decide)) (primsOk_resetPrims _) rfl
      (Nat.zero_le _)

/-- A pass goes on when there is a presence and is aborted when there is none (R152, R158). -/
theorem Running.passAfterPresence {s : State} {op : Instr} {o : Origin} (h : Running s)
    (own : Point.searchSent.belongsTo op = true) (room : HasRoom op s) :
    Inv (if s.status.pd then s.goto op o (writeBytePrims s.params searchRomCmd) .searchSent
      else s.abortNoPres.goto op o [] (.passDone .noPres)) := by
  split
  · exact h.goto_inside room (primsOk_writeBytePrims _ _) own (Nat.zero_le _)
  · exact h.abortNoPres.goto_inside room rfl own (Nat.zero_le _)

theorem Running.afterPresence {s : State} {op : Instr} {o : Origin} (h : Running s)
    (room : HasRoom op s) : Inv (s.afterPresence op o) := by
  cases op with
  | reset => exact h.resetOutcome.goto_finish
  | srchf | srchn | enum | enumc => exact h.passAfterPresence rfl room
  | poll =>
    rw [State.afterPresence]
    split
    · exact h.present.goto_outside (primsOk_romPrims _) rfl rfl
    · exact h.removed.goto_finish
  | wbit | rbit | wbyte | rbyte | crcb | rdrom => exact h.goto_finish

theorem Running.afterRom {s : State} {op : Instr} {o : Origin} (h : Running s) :
    Inv (s.afterRom op o) := by
  unfold State.afterRom
  split
  · exact h.pollOutcome.goto_finish
  · exact h.rdromOutcome.goto_finish

@[simp] theorem State.takeBranch_status (n : Nat) (a b : Bool) (s : State) :
    (s.takeBranch n a b).1.status = s.status := by
  unfold State.takeBranch
  split
  · rfl
  · split <;> rfl

theorem Running.afterPair {s : State} {op : Instr} {o : Origin} {n : Nat} (h : Running s)
    (own : (Point.pair n).belongsTo op = true) (hn : n ≤ 64) (room : HasRoom op s) (a b : Bool) :
    Inv (s.afterPair op o n a b) := by
  unfold State.afterPair
  split
  · exact h.abortConflict.goto_inside room rfl own (Nat.zero_le _)
  · have room' : HasRoom op (s.takeBranch n a b).1 := by simpa [HasRoom] using room
    exact ((h.takeBranch hn a b).recordBit n _).goto_inside room' (primsOk_writeBitPrims _ _) own hn

theorem enumHead_belongsTo {op : Instr} :
    Point.enumHead.belongsTo op = true ↔ op = .enum ∨ op = .enumc := by
  simp [Point.belongsTo]

theorem Running.afterPass {s : State} {op : Instr} {o : Origin} {r : PassResult} (h : Running s)
    (room : HasRoom op s) (checked : r = .ok → s.status.crcok = validRom s.rombuf) :
    Inv (s.afterPass op o r) := by
  unfold State.afterPass
  split
  · rename_i hop
    split
    · rename_i hok
      exact (h.insertRom (checked hok) (room hop)).goto_outside rfl (enumHead_belongsTo.mpr hop) rfl
    · exact h.goto_finish
  · exact (h.reportCrc r).goto_finish

theorem Running.enumHead {s : State} {op : Instr} {o : Origin} (h : Running s)
    (own : Point.enumHead.belongsTo op = true) : Inv (s.enumHead op o) := by
  unfold State.enumHead
  split
  · exact h.goto_finish
  · rename_i hs
    have own' : Point.presence.belongsTo op = true := by
      rcases enumHead_belongsTo.mp own with rfl | rfl <;> rfl
    exact (h.countPass hs).beginPass own' fun _ => h.room hs

/-- One step from a point of the running command's own pseudocode keeps the invariant. -/
theorem Running.resume {s : State} {op : Instr} {o : Origin} {got : List Bool} {pt : Point}
    (h : Running s) (hp : PosInv op { todo := [], got := got, next := pt } s) :
    Inv (s.resume op o got pt) := by
  have own : pt.belongsTo op = true := hp.own
  have room : pt.inPass = true → HasRoom op s := fun hin hop => hp.room hop hin
  cases pt with
  | start => exact h.beginCommand
  | presence =>
    exact (h.setPresence _).goto_inside (room rfl) rfl own (Nat.zero_le _)
  | presenceKnown => exact h.afterPresence (room rfl)
  | bitRead => exact (h.putBit _).goto_finish
  | byteRead => exact (h.putByte _).goto_finish
  | romByte i =>
    rw [State.resume]
    split
    · exact (h.romPut _ _ _).goto_outside (primsOk_readBytePrims _) own rfl
    · exact (h.romPut _ _ _).goto_outside rfl own rfl
  | romDone => exact h.afterRom
  | searchSent =>
    exact h.clearLastzero.goto_inside (room rfl) (primsOk_pairPrims _) own (by decide)
  | pair n => exact h.afterPair own hp.position (room rfl) _ _
  | written n =>
    rw [State.resume]
    split
    · rename_i hn
      exact h.goto_inside (room rfl) (primsOk_pairPrims _) own hn
    · exact h.completePass.goto_inside (room rfl) rfl own (Nat.zero_le _) (fun _ => rfl)
  | passDone r => exact h.afterPass (room rfl) fun hr => hp.checked (by rw [hr])
  | enumHead => exact h.enumHead own
  | finish => exact h.finish op o

/-! ### A step of the sequencer (R36, R190) -/

/-- A line primitive moves the line and the environment and nothing else (R100 to R102). -/
theorem State.perform_eq (p : Prim) (s : State) :
    (s.perform p).1 = { s with drv := (s.perform p).1.drv, env := (s.perform p).1.env } := by
  cases p <;> rfl

theorem Inv.perform {s : State} {op : Instr} {o : Origin} {p : Prim} {todo : List Prim}
    {got bits : List Bool} {pt : Point} (h : Inv s)
    (hs : s.seq = .run op o { todo := p :: todo, got := got, next := pt }) :
    Inv { (s.perform p).1 with seq := .run op o { todo := todo, got := bits, next := pt } } := by
  have hp := h.pos _ _ _ hs
  have line := primsOk_perform hp.line
  rw [State.perform_eq]
  exact { h with
    busy := iff_of_true (h.busy.mpr (by simp [hs])) (by simp)
    idleReleased := fun hi => nomatch hi
    pos := fun _ _ _ hr => by
      cases hr
      exact { hp with line := line } }

/-- Acceptance for a sequencer that then goes on step by step: a host's CMD write or an autopoll
start (R77, R190). -/
theorem Inv.acceptStart {s : State} (h : Inv s) (hi : s.seq = .idle) (op : Instr) (o : Origin) :
    Inv (s.accept op o) :=
  (h.accept hi op o).goto_outside (o := o) (pt := .start) rfl rfl rfl

theorem Inv.seqStep {s : State} (h : Inv s) : Inv s.seqStep := by
  unfold State.seqStep
  split
  · rename_i hi
    split
    · exact h.acceptStart hi _ _
    · exact h
  · rename_i op o pos hs
    obtain ⟨todo, got, pt⟩ := pos
    cases todo with
    | nil => exact (h.running hs).resume (h.pos _ _ _ hs)
    | cons p todo => exact h.perform hs

/-! ### Host accesses and time keep the invariant -/

/-- What stands outside the block is no part of the invariant (R20). -/
theorem Inv.withEnv {s : State} (h : Inv s) (e : Env) : Inv { s with env := e } :=
  { h with pos := fun op o pos hs => { h.pos op o pos hs with } }

theorem Inv.dispatch {s : State} (h : Inv s) (v : Byte) : Inv (s.dispatch v) := by
  unfold State.dispatch
  split
  · exact h.reject
  · rename_i hb
    split
    · exact h.reject
    · split
      · exact h.acceptStart (h.idle_of_not_busy hb) _ _
      · exact h.reject

/-- CTRL keeps two bits, and the timer only restarts (R27, R51). -/
theorem Inv.writeCtrl {s : State} (h : Inv s) (v : Byte) : Inv (s.writeCtrl v) :=
  { h with
    ctrl := by simp [State.writeCtrl, BitVec.and_assoc]
    apt := by
      unfold State.writeCtrl
      dsimp only
      split
      · exact Nat.zero_le _
      · exact h.apt
    pos := fun op o pos hs => { h.pos op o pos hs with } }

theorem Inv.memWrite {s : State} (h : Inv s) (r : Reg) (v : Byte) : Inv (s.memWrite r v) := by
  cases r with
  | cmd => exact h.dispatch v
  | ctrl => exact h.writeCtrl v
  | events | ie | csel => exact { h with pos := fun op o pos hs => { h.pos op o pos hs with } }
  | data | crc =>
    rw [State.memWrite]
    split
    · exact h
    · exact { h with pos := fun op o pos hs => { h.pos op o pos hs with } }
  | status | ld | ccount | rombuf | ident | cent | reserved => exact h

theorem Inv.memRead {s : State} (h : Inv s) (a : Addr) : Inv (s.memRead a).2 := by
  unfold State.memRead
  dsimp only
  split
  · exact h.withEnv _
  · exact h.withEnv _

theorem Inv.hostAccess {s t : State} {acc : HostAccess} (h : Inv s)
    (ht : s.hostAccess acc = .next t) : Inv t := by
  cases acc with
  | read a width =>
    rw [State.hostAccess] at ht
    split at ht
    · cases ht
      exact h.memRead a
    · cases ht
  | write a width v =>
    rw [State.hostAccess] at ht
    split at ht
    · cases ht
      exact h.memWrite _ v
    · cases ht

theorem Inv.hostWord {s t : State} {w : HostWord} (h : Inv s) (ht : s.hostWord w = .next t) :
    Inv t := by
  unfold State.hostWord at ht
  split at ht
  · exact h.hostAccess ht
  · cases ht

theorem Inv.elapse {s : State} (h : Inv s) (us : Nat) : Inv (s.elapse us) :=
  { h with
    apt := Nat.min_le_right _ _
    pos := fun op o pos hs => { h.pos op o pos hs with } }

/-! ### Every step keeps the invariant (R45) -/

theorem Inv.command {s t : State} {v : Byte} (h : Inv s) (ht : s.command v = .next t) : Inv t := by
  unfold State.command at ht
  split at ht
  · exact h.exec ht
  · cases ht
    exact h.reject

theorem Inv.takeInput {s t : State} {inp : Input} (h : Inv s) (ht : s.takeInput inp = .next t) :
    Inv t := by
  cases inp with
  | seq => cases ht; exact h.seqStep
  | access a => exact h.hostAccess ht
  | host w => exact h.hostWord ht
  | command v => exact h.command ht
  | rst => cases ht; exact State.initial_inv _ _ h.params
  | elapse us => cases ht; exact h.elapse us

/-- Settles O13, by cases on what the step takes: no input (the sequencer moves) or the next
input. -/
theorem everyStepKeepsTheInvariant : Obligations.EveryStepKeepsTheInvariant := by
  intro s t h ht
  unfold step at ht
  split at ht
  · cases ht
    exact h.seqStep
  · exact (h.withEnv _).takeInput ht

end Sys2Proof.Machine
end

section
/-!
PROOFS. The host's side of a step (spec/20_memory.md R50 to R57, R60): which agent a step moves, what
a host write does at each address of the window, what a host read returns, and the refusal of an
access that is not one byte wide. First one rule for each form of a step, then which registers the
addresses of R52 and R54 name.
-/

namespace Sys2Proof.Machine

/-! ### One step, by what it takes (R60) -/

theorem step_of_no_input {s : State} (h : s.env.inputs = []) : step s = .next s.seqStep := by
  simp only [step, h]

theorem step_of_input {s : State} {inp : Input} {rest : List Input}
    (h : s.env.inputs = inp :: rest) : step s = (s.withInputs rest).takeInput inp := by
  simp only [step, h]

theorem State.hostWord_of_decode {w : HostWord} {acc : HostAccess} (s : State)
    (h : decodeHostWord w = some acc) : s.hostWord w = s.hostAccess acc := by
  simp only [State.hostWord, h]

/-- Settles O7, by the form of the next input. -/
theorem stepTakesTheNextInput : Obligations.StepTakesTheNextInput := by
  intro s rest
  refine ⟨step_of_no_input, step_of_input, fun us h => step_of_input h, fun w acc h hw => ?_⟩
  rw [step_of_input h]
  exact State.hostWord_of_decode _ hw

/-! ### One host access (R55) -/

theorem State.hostAccess_of_not_wf {acc : HostAccess} (s : State) (h : acc.wf = false) :
    s.hostAccess acc = .refused .accessWidth := by
  cases acc with
  | read a width | write a width v =>
    have hw : width ≠ 1 := by simpa [HostAccess.wf] using h
    exact if_neg hw

/-- Settles O57: an access is well-formed exactly when it is one byte wide. -/
theorem otherWidthsAreRefused : Obligations.OtherWidthsAreRefused := by
  intro s a width v rest hw
  have hwf : (width == 1) = false := beq_false_of_ne hw
  constructor
  · intro h
    rw [step_of_input h]
    exact State.hostAccess_of_not_wf (acc := .read a width) _ hwf
  · intro h
    rw [step_of_input h]
    exact State.hostAccess_of_not_wf (acc := .write a width v) _ hwf

theorem step_of_read {s : State} {a : Addr} {rest : List Input}
    (h : s.env.inputs = .access (.read a 1) :: rest) :
    step s = .next ((s.withInputs rest).memRead a).2 := step_of_input h

theorem step_of_write {s : State} {a : Addr} {v : Byte} {rest : List Input}
    (h : s.env.inputs = .access (.write a 1 v) :: rest) :
    step s = .next ((s.withInputs rest).memWrite (addrReg a) v) := step_of_input h

/-! ### Host writes (R51 to R53) -/

/-- The registers that ignore a host write (R52). -/
def ignoresWrites : Reg → Bool
  | .status | .ld | .ccount | .rombuf _ | .ident _ | .cent _ | .reserved => true
  | .cmd | .events | .ie | .ctrl | .data | .crc | .csel => false

theorem State.memWrite_of_ignoresWrites {r : Reg} (v : Byte) (s : State)
    (h : ignoresWrites r = true) : s.memWrite r v = s := by
  cases r with
  | status | ld | ccount | rombuf | ident | cent | reserved => rfl
  | cmd | events | ie | ctrl | data | crc | csel => cases h

/-- The read-only and reserved addresses of R74's map, among its 64. -/
theorem ignoresWrites_addrReg : ∀ a : Addr, ignoresWrites (addrReg a) = true ↔
    a = 0x01#6 ∨ a = 0x07#6 ∨ a = 0x08#6 ∨ 0x0A#6 ≤ a := by decide

theorem State.memWrite_data (v : Byte) (s : State) :
    s.memWrite .data v = { s with data := if s.status.busy then s.data else v } := by
  rw [State.memWrite]
  split <;> rfl

theorem State.memWrite_crc (v : Byte) (s : State) :
    s.memWrite .crc v = { s with crc := if s.status.busy then s.crc else v } := by
  rw [State.memWrite]
  split <;> rfl

/-- A CTRL write restarts the autopoll timer when AUTOPOLL goes 0→1 (R51). -/
theorem State.memWrite_ctrl (v : Byte) (s : State) :
    s.memWrite .ctrl v = { s with
      ctrl := v &&& 0x03#8
      apt := if s.ctrl.getLsbD 0 = false ∧ v.getLsbD 0 = true then 0 else s.apt } := by
  simp [State.memWrite, State.writeCtrl, State.autopoll]

/-- Settles O54, by the register at the address written. -/
theorem hostWritesByRegister : Obligations.HostWritesByRegister := by
  intro s a v rest h
  rw [step_of_write h]
  refine ⟨?events, ?ie, ?ctrl, ?data, ?crc, ?csel, ?ignored⟩
  case events | ie | csel => rintro rfl; rfl
  case ctrl => rintro rfl; exact congrArg _ (State.memWrite_ctrl v _)
  case data => rintro rfl; exact congrArg _ (State.memWrite_data v _)
  case crc => rintro rfl; exact congrArg _ (State.memWrite_crc v _)
  case ignored =>
    intro ha
    rw [State.memWrite_of_ignoresWrites v _ ((ignoresWrites_addrReg a).mpr ha)]

/-! ### Host reads (R51, R54, R57) -/

/-- The addresses whose reads are draws while BUSY = 1 (R54), among the 64 of R74's map. -/
theorem drawnWhileBusy_addrReg : ∀ a : Addr, drawnWhileBusy (addrReg a) = true ↔
    (0x05 ≤ a.toNat ∧ a.toNat < 0x09) ∨ (0x10 ≤ a.toNat ∧ a.toNat < 0x18) ∨
      (0x20 ≤ a.toNat ∧ a.toNat < 0x28) := by decide

theorem State.memRead_exact {a : Addr} (s : State)
    (h : ¬ (s.status.busy = true ∧ drawnWhileBusy (addrReg a) = true)) :
    (s.memRead a).2 = { s with env := { s.env with
      reads := s.env.reads ++ [(a, s.regValue (addrReg a))] } } := by
  rw [State.memRead, if_neg (by simpa using h)]

theorem State.memRead_drawn {a : Addr} (s : State) (hb : s.status.busy = true)
    (hd : drawnWhileBusy (addrReg a) = true) :
    (s.memRead a).2 = { s with env := { s.env with
      nDraws := s.env.nDraws + 1
      reads := s.env.reads ++ [(a, Config.busyRead s.env.nDraws)] } } := by
  rw [State.memRead, if_pos (by simp [hb, hd])]

/-- No register is part of the list of inputs. -/
@[simp] theorem State.withInputs_regValue (r : Reg) (s : State) (l : List Input) :
    (s.withInputs l).regValue r = s.regValue r := by cases r <;> rfl

/-- Settles O55: at the addresses of the first clause no read is a draw, at those of the second every
read while BUSY = 1 is one. -/
theorem hostReadsChangeNothing : Obligations.HostReadsChangeNothing := by
  intro s a rest h
  rw [step_of_read h]
  refine ⟨fun hexact => ?_, fun hb hdrawn => ?_⟩
  · have hno : ¬ (s.status.busy = true ∧ drawnWhileBusy (addrReg a) = true) := by
      rw [drawnWhileBusy_addrReg]
      rintro ⟨hb, hdrawn⟩
      rcases hexact with hidle | hexact
      · exact absurd (hb.symm.trans hidle) (by decide)
      · omega
    rw [State.memRead_exact (s.withInputs rest) hno, State.withInputs_regValue]
    rfl
  · rw [State.memRead_drawn (s.withInputs rest) hb ((drawnWhileBusy_addrReg a).mpr hdrawn)]
    rfl

end Sys2Proof.Machine
end

section
/-!
PROOFS. The encoding of the host's side (spec/30_encoding.md): opcodes and their bytes (R70, R75,
R79), the register map (R73, R74), the 16-bit host operations (R81), and what the dispatcher does
with a value written to CMD (R76 to R80).
-/

namespace Sys2Proof.Machine

/-! ### Host operations in 16 bits (R81) -/

/-- The three fields of a host operation (R81): the kind in bits 15:14, the address in bits 13:8, the
data in bits 7:0. -/
def hostFields (kind : BitVec 2) (a : Addr) (v : Byte) : HostWord := kind ++ a ++ v

@[simp] theorem hostFields_kind (kind : BitVec 2) (a : Addr) (v : Byte) :
    (hostFields kind a v).extractLsb' 14 2 = kind :=
  (BitVec.extractLsb'_append_eq_of_le (by decide)).trans BitVec.extractLsb'_append_eq_left

@[simp] theorem hostFields_addr (kind : BitVec 2) (a : Addr) (v : Byte) :
    (hostFields kind a v).extractLsb' 8 6 = a :=
  (BitVec.extractLsb'_append_eq_of_le (by decide)).trans BitVec.extractLsb'_append_eq_right

@[simp] theorem hostFields_data (kind : BitVec 2) (a : Addr) (v : Byte) :
    (hostFields kind a v).extractLsb' 0 8 = v := BitVec.extractLsb'_append_eq_right

theorem hostFields_or (k k' : BitVec 2) (a a' : Addr) (v v' : Byte) :
    hostFields k a v ||| hostFields k' a' v' = hostFields (k ||| k') (a ||| a') (v ||| v') :=
  BitVec.or_append.trans (congrArg (· ++ (v ||| v')) BitVec.or_append)

/-- An address shifted to bits 13:8, among the 64 of the window. -/
theorem shiftLeft_eq_hostFields :
    ∀ a : Addr, a.setWidth 16 <<< 8 = hostFields 0b00#2 a 0x00#8 := by decide

theorem setWidth_eq_hostFields (v : Byte) : v.setWidth 16 = hostFields 0b00#2 0x00#6 v :=
  BitVec.setWidth_eq_append (by decide)

theorem encodeHostWord_read (a : Addr) (width : Nat) :
    encodeHostWord (.read a width) = hostFields 0b00#2 a 0x00#8 := shiftLeft_eq_hostFields a

theorem encodeHostWord_write (a : Addr) (width : Nat) (v : Byte) :
    encodeHostWord (.write a width v) = hostFields 0b10#2 a v := by
  have kindBit : 0x8000#16 = hostFields 0b10#2 0x00#6 0x00#8 := by decide
  rw [encodeHostWord, kindBit, shiftLeft_eq_hostFields, setWidth_eq_hostFields, hostFields_or,
    hostFields_or]
  simp

theorem decodeHostWord_read (a : Addr) :
    decodeHostWord (hostFields 0b00#2 a 0x00#8) = some (.read a 1) := by
  simp [decodeHostWord]

theorem decodeHostWord_write (a : Addr) (v : Byte) :
    decodeHostWord (hostFields 0b10#2 a v) = some (.write a 1 v) := by
  simp [decodeHostWord]

/-- Bit 14 is the low bit of the kind, and that bit is 0 in both kinds of operation (R81). -/
theorem decodeHostWord_of_bit14 {w : HostWord} (h : w.getLsbD 14 = true) :
    decodeHostWord w = none := by
  have low : (w.extractLsb' 14 2).getLsbD 0 = true := by simpa using h
  have kind_ne (kind : BitVec 2) (hkind : kind.getLsbD 0 = false) :
      w.extractLsb' 14 2 ≠ kind := by
    intro hw
    rw [hw, hkind] at low
    cases low
  rw [decodeHostWord, if_neg (kind_ne _ (by decide)), if_neg fun hr => kind_ne _ (by decide) hr.1]

/-- Settles O4, by the kind of access: its three fields are read back. -/
theorem hostOperationsRoundTrip : Obligations.HostOperationsRoundTrip := by
  refine ⟨fun acc hwf => ?_, fun w => decodeHostWord_of_bit14⟩
  cases acc with
  | read a width =>
    obtain rfl : width = 1 := by simpa [HostAccess.wf] using hwf
    rw [encodeHostWord_read, decodeHostWord_read]
  | write a width v =>
    obtain rfl : width = 1 := by simpa [HostAccess.wf] using hwf
    rw [encodeHostWord_write, decodeHostWord_write]

/-! ### Opcodes (R70, R75, R79) -/

/-- Settles O1: the bytes of R75's rows are the opcodes of its commands. -/
theorem opcodeWordsDecodeToTheirCommands : Obligations.OpcodeWordsDecodeToTheirCommands :=
  ⟨decodeOpcode_opcode .reset, decodeOpcode_opcode .wbit, decodeOpcode_opcode .rbit,
    decodeOpcode_opcode .wbyte, decodeOpcode_opcode .rbyte, decodeOpcode_opcode .crcb,
    decodeOpcode_opcode .rdrom, decodeOpcode_opcode .srchf, decodeOpcode_opcode .srchn,
    decodeOpcode_opcode .enum, decodeOpcode_opcode .enumc, decodeOpcode_opcode .poll⟩

theorem instr_wf (i : Instr) : i.wf = true := by cases i <;> rfl

theorem decode_encode_append (i : Instr) (rest : List Byte) :
    decode (encode i ++ rest) = .ok (i, rest) := by
  simp [decode, encode]

/-- Settles O2: the one byte of a command is its opcode. -/
theorem decodeOfEncodeGivesTheCommandBack : Obligations.DecodeOfEncodeGivesTheCommandBack :=
  fun i rest => ⟨instr_wf i, decode_encode_append i rest⟩

/-- Every row of the opcode map is a command with its opcode (R75). -/
theorem opcode_of_mem_opcodeMap : ∀ row ∈ opcodeMap, opcode row.2 = row.1 := by decide

theorem decodeOpcode_illegal_or_ok (v : Byte) :
    decodeOpcode v = .error (.illegalOpcode v) ∨ ∃ i, decodeOpcode v = .ok i ∧ opcode i = v := by
  unfold decodeOpcode
  split
  · rename_i row hrow
    refine .inr ⟨row.2, rfl, ?_⟩
    rw [opcode_of_mem_opcodeMap row (List.mem_of_find?_eq_some hrow)]
    simpa using List.find?_some hrow
  · exact .inl rfl

/-- The illegal values, among the 256 of a byte (R79). -/
theorem decodeOpcode_illegal_iff : ∀ v : Byte, decodeOpcode v = .error (.illegalOpcode v) ↔
    v = 0x00#8 ∨ (0x07#8 ≤ v ∧ v ≤ 0x0F#8) ∨ (0x15#8 ≤ v ∧ v ≤ 0x1F#8) ∨ 0x21#8 ≤ v := by decide

/-! ### The dispatcher (R76 to R80) -/

/-- A rejection is ERR_CMD, bit 7 of EVENTS, and nothing else (R78, R200). -/
theorem State.reject_eq (s : State) : s.reject = { s with events := s.events ||| 0x80#8 } := rfl

theorem State.dispatch_of_busy (v : Byte) {s : State} (h : s.status.busy = true) :
    s.dispatch v = s.reject := if_pos h

theorem State.dispatch_of_illegal {v : Byte} {e : DecodeError} (s : State)
    (h : decodeOpcode v = .error e) : s.dispatch v = s.reject := by
  simp only [State.dispatch, h, ite_self]

theorem mayAccept_of_arm {i : Instr} {s : State} (h : i = .rdrom → s.status.arm = true) :
    mayAccept i s = true := by
  simpa [mayAccept, Decidable.or_iff_not_imp_left] using h

theorem State.dispatch_of_opcode {i : Instr} {s : State} (hb : s.status.busy = false)
    (ha : i = .rdrom → s.status.arm = true) : s.dispatch (opcode i) = s.accept i .host := by
  simp [State.dispatch, hb, mayAccept_of_arm ha]

/-- Settles O3: the illegal values are those outside the opcode map, and a host's write of one
reaches the dispatcher's rejection. -/
theorem everyByteIsACommandOrIllegal : Obligations.EveryByteIsACommandOrIllegal := fun v =>
  ⟨decodeOpcode_illegal_iff v, decodeOpcode_illegal_or_ok v, fun hv s => s.dispatch_of_illegal hv⟩

/-- Settles O21: the dispatcher looks at BUSY first, in both grains. -/
theorem commandsWhileBusyAreRejected : Obligations.CommandsWhileBusyAreRejected := by
  intro i v s hb
  constructor
  · rw [exec_eq_hostCommand, hostCommand_busy i _ s hb]
    rfl
  · exact State.dispatch_of_busy v hb

/-- Settles O23: the write reaches the dispatcher, which accepts. -/
theorem legalCommandWriteIsAccepted : Obligations.LegalCommandWriteIsAccepted := by
  intro i s rest h hb ha
  rw [step_of_write h]
  exact congrArg _ (State.dispatch_of_opcode (s := s.withInputs rest) hb ha)

theorem State.command_of_opcode {v : Byte} {i : Instr} (s : State) (h : decodeOpcode v = .ok i) :
    s.command v = exec i s := by simp only [State.command, h]

theorem State.command_of_illegal {v : Byte} {e : DecodeError} (s : State)
    (h : decodeOpcode v = .error e) : s.command v = .next s.reject := by
  simp only [State.command, h]

theorem step_of_command {s : State} {v : Byte} {rest : List Input}
    (h : s.env.inputs = .command v :: rest) : step s = (s.withInputs rest).command v :=
  step_of_input h

/-- Settles O6, by what the value decodes to. -/
theorem stepRunsTheDecodedCommand : Obligations.StepRunsTheDecodedCommand := by
  intro s v rest h
  rw [step_of_command h]
  refine ⟨fun i hi => State.command_of_opcode _ hi, fun e he => ?_⟩
  rw [State.command_of_illegal _ he, State.reject_eq, State.withInputs_events]

theorem State.seqStep_of_finish {s : State} {op : Instr} {o : Origin} {got : List Bool}
    (h : s.seq = .run op o { todo := [], got := got, next := .finish }) :
    s.seqStep = s.finish op o := by
  simp only [State.seqStep, h, State.resume]

/-- Settles O19, by who started the command: only a host's raises EV_DONE. -/
theorem commandEndIsOneStep : Obligations.CommandEndIsOneStep := by
  intro s op o got hin hs
  rw [step_of_no_input hin, State.seqStep_of_finish hs]
  cases o with
  | host => exact congrArg _ (State.finish_host op s)
  | auto => exact congrArg _ (State.finish_auto op s)

/-! ### The register map (R73, R74) -/

theorem addrReg_regAddr (r : Reg) (hr : r ≠ .reserved) : addrReg (regAddr r) = r := by
  cases r with
  | rombuf i | ident i | cent i => revert i; decide
  | reserved => exact absurd rfl hr
  | _ => rfl

theorem regAddr_addrReg : ∀ a : Addr, addrReg a ≠ .reserved → regAddr (addrReg a) = a := by decide

/-- The reserved addresses of R52, among the 64 of the window. -/
theorem addrReg_eq_reserved_iff : ∀ a : Addr,
    addrReg a = .reserved ↔ (0x0A#6 ≤ a ∧ a ≤ 0x0F#6) ∨ 0x28#6 ≤ a := by decide

/-- Settles O5: `regAddr` and `addrReg` undo each other outside the reserved addresses. -/
theorem everyRegisterHasOneAddress : Obligations.EveryRegisterHasOneAddress := by
  refine ⟨addrReg_regAddr, fun a b hab ha => ?_, addrReg_eq_reserved_iff⟩
  calc a = regAddr (addrReg a) := (regAddr_addrReg a ha).symm
    _ = regAddr (addrReg b) := by rw [hab]
    _ = b := regAddr_addrReg b (hab ▸ ha)

theorem State.cent_of_entry {s : State} {x : Ident} (h : s.cache[s.csel.toNat]? = some x)
    (i : Fin 8) : s.cent i = x[i] := by
  simp only [State.cent, h]

theorem State.cent_of_no_entry {s : State} (h : s.cache.length ≤ s.csel.toNat) (i : Fin 8) :
    s.cent i = 0x00#8 := by
  simp only [State.cent, List.getElem?_eq_none h]

/-- Settles O56: the buffers' bytes stand at their registers' addresses, and CSEL selects a cache
entry or, from CACHE_DEPTH on, none. -/
theorem windowHoldsTheRegisters : Obligations.WindowHoldsTheRegisters := by
  intro s
  refine ⟨rfl, rfl, rfl, rfl, rfl, rfl, rfl, rfl, rfl, rfl, fun i => ?_, fun a ha => ?_⟩
  · have rombufAddr := addrReg_regAddr (.rombuf i) nofun
    have identAddr := addrReg_regAddr (.ident i) nofun
    have centAddr := addrReg_regAddr (.cent i) nofun
    simp only [regAddr] at rombufAddr identAddr centAddr
    rw [rombufAddr, identAddr, centAddr]
    refine ⟨rfl, rfl, fun x hx => State.cent_of_entry hx i, fun hinv hsel => ?_⟩
    exact State.cent_of_no_entry (hinv.cacheLength.trans_le hsel) i
  · rw [(addrReg_eq_reserved_iff a).mpr ha]
    rfl

end Sys2Proof.Machine
end

section
/-!
PROOFS. Commands step by step (spec/30_encoding.md R80, R81; spec/70_reset_and_hazards.md R240): a
command run whole is its acceptance and a run of sequencer steps, and every command ends. One rule
says where a stretch of line primitives and the step after it lead; each routine of the pseudocode
has a rule built from it, and each command is its routines in a row. That a command ends is a measure
of what is left of it, which every step of the sequencer lowers.
-/

namespace Sys2Proof.Machine

/-! ### The count of passes changes in enumerations only (R40, R163) -/

@[simp] theorem State.raiseIf_passes (c : Bool) (e : Event) (s : State) :
    (s.raiseIf c e).passes = s.passes := by cases c <;> rfl

@[simp] theorem State.romPut_passes (b : RomTarget) (i : Nat) (v : Byte) (s : State) :
    (s.romPut b i v).passes = s.passes := by cases b <;> rfl

@[simp] theorem State.resetOutcome_passes (s : State) : s.resetOutcome.passes = s.passes := by
  unfold State.resetOutcome
  split <;> rfl

@[simp] theorem State.rdromOutcome_passes (s : State) : s.rdromOutcome.passes = s.passes := by
  rw [State.rdromOutcome, State.raiseIf_passes]

@[simp] theorem State.removed_passes (s : State) : s.removed.passes = s.passes := by
  unfold State.removed
  split <;> rfl

@[simp] theorem State.present_passes (s : State) : s.present.passes = s.passes := by
  unfold State.present
  split <;> rfl

@[simp] theorem State.adopt_passes (s : State) : s.adopt.passes = s.passes := by
  unfold State.adopt
  split <;> rfl

@[simp] theorem State.pollOutcome_passes (s : State) : s.pollOutcome.passes = s.passes := by
  unfold State.pollOutcome
  split
  · exact s.adopt_passes
  · rfl

@[simp] theorem State.abortNoPres_passes (s : State) : s.abortNoPres.passes = s.passes := rfl

@[simp] theorem State.abortConflict_passes (s : State) : s.abortConflict.passes = s.passes := rfl

@[simp] theorem State.reportCrc_passes (r : PassResult) (s : State) :
    (s.reportCrc r).passes = s.passes := State.raiseIf_passes _ _ s

@[simp] theorem State.insertRom_passes (s : State) : s.insertRom.passes = s.passes := by
  unfold State.insertRom
  split <;> rfl

@[simp] theorem State.takeBranch_passes (n : Nat) (a b : Bool) (s : State) :
    (s.takeBranch n a b).1.passes = s.passes := by
  unfold State.takeBranch
  split
  · rfl
  · split <;> rfl

@[simp] theorem State.stepBit_passes (n : Nat) (s : State) :
    (s.stepBit n).1.passes = s.passes := by
  unfold State.stepBit
  dsimp only
  split <;> simp [State.writeBit_eq, State.readBit_eq]

@[simp] theorem searchBits_passes (k n : Nat) (s : State) :
    (searchBits k n s).1.passes = s.passes := by
  induction k generalizing n s with
  | zero => rfl
  | succ k ih =>
    rw [searchBits]
    split
    · rw [ih, State.stepBit_passes]
    · exact State.stepBit_passes n s

@[simp] theorem State.searchPass_passes (s : State) : s.searchPass.1.passes = s.passes := by
  unfold State.searchPass
  dsimp only
  split
  · simp [State.writeByte_eq, State.resetPresence_eq]
  · simp [State.abortNoPres, State.resetPresence_eq]

/-! ### The sequencer's position is no operand of the pseudocode (R36, R71) -/

theorem State.raiseIf_seq (c : Bool) (e : Event) (s : State) (q : Seq) :
    State.raiseIf c e { s with seq := q } = { s.raiseIf c e with seq := q } := by
  cases c <;> rfl

theorem State.romPut_seq (b : RomTarget) (i : Nat) (v : Byte) (s : State) (q : Seq) :
    State.romPut b i v { s with seq := q } = { s.romPut b i v with seq := q } := by
  cases b <;> rfl

theorem State.resetOutcome_seq (s : State) (q : Seq) :
    State.resetOutcome { s with seq := q } = { s.resetOutcome with seq := q } := by
  unfold State.resetOutcome
  dsimp only
  split <;> rfl

theorem State.rdromOutcome_seq (s : State) (q : Seq) :
    State.rdromOutcome { s with seq := q } = { s.rdromOutcome with seq := q } :=
  State.raiseIf_seq _ _ { s with status := { s.status with crcok := validRom s.rombuf } } q

theorem State.removed_seq (s : State) (q : Seq) :
    State.removed { s with seq := q } = { s.removed with seq := q } := by
  unfold State.removed
  dsimp only
  split <;> rfl

theorem State.present_seq (s : State) (q : Seq) :
    State.present { s with seq := q } = { s.present with seq := q } := by
  unfold State.present
  dsimp only
  split <;> rfl

theorem State.adopt_seq (s : State) (q : Seq) :
    State.adopt { s with seq := q } = { s.adopt with seq := q } := by
  unfold State.adopt
  dsimp only
  split <;> rfl

theorem State.pollOutcome_seq (s : State) (q : Seq) :
    State.pollOutcome { s with seq := q } = { s.pollOutcome with seq := q } := by
  unfold State.pollOutcome
  dsimp only
  split
  · exact s.adopt_seq q
  · rfl

theorem State.reportCrc_seq (r : PassResult) (s : State) (q : Seq) :
    State.reportCrc r { s with seq := q } = { s.reportCrc r with seq := q } :=
  State.raiseIf_seq _ _ _ q

theorem State.insertRom_seq (s : State) (q : Seq) :
    State.insertRom { s with seq := q } = { s.insertRom with seq := q } := by
  unfold State.insertRom
  dsimp only
  split <;> rfl

theorem State.takeBranch_seq (n : Nat) (a b : Bool) (s : State) (q : Seq) :
    State.takeBranch n a b { s with seq := q } =
      ({ (s.takeBranch n a b).1 with seq := q }, (s.takeBranch n a b).2) := by
  have hbranch : State.chosenBranch n { s with seq := q } = s.chosenBranch n := rfl
  unfold State.takeBranch
  rw [hbranch]
  split
  · rfl
  · split <;> rfl

theorem State.afterPresence_seq (op : Instr) (o : Origin) (s : State) (q : Seq) :
    State.afterPresence op o { s with seq := q } = s.afterPresence op o := by
  cases op with
  | reset => rw [State.afterPresence, State.resetOutcome_seq]; rfl
  | poll => rw [State.afterPresence, State.present_seq, State.removed_seq]; rfl
  | _ => rfl

theorem State.afterRom_seq (op : Instr) (o : Origin) (s : State) (q : Seq) :
    State.afterRom op o { s with seq := q } = s.afterRom op o := by
  rw [State.afterRom, State.pollOutcome_seq, State.rdromOutcome_seq]; rfl

theorem State.afterPair_seq (op : Instr) (o : Origin) (n : Nat) (a b : Bool) (s : State) (q : Seq) :
    State.afterPair op o n a b { s with seq := q } = s.afterPair op o n a b := by
  rw [State.afterPair, State.takeBranch_seq]; rfl

theorem State.afterPass_seq (op : Instr) (o : Origin) (r : PassResult) (s : State) (q : Seq) :
    State.afterPass op o r { s with seq := q } = s.afterPass op o r := by
  rw [State.afterPass, State.insertRom_seq, State.reportCrc_seq]; rfl

/-- A step from a point of the pseudocode replaces the position and never looks at it (R36). -/
theorem State.resume_seq (op : Instr) (o : Origin) (got : List Bool) (pt : Point) (s : State)
    (q : Seq) : State.resume op o got pt { s with seq := q } = s.resume op o got pt := by
  cases pt with
  | start => cases op <;> rfl
  | presenceKnown => exact s.afterPresence_seq op o q
  | romByte i => rw [State.resume, State.romPut_seq]; rfl
  | romDone => exact s.afterRom_seq op o q
  | pair n => exact s.afterPair_seq op o n _ _ q
  | passDone r => exact s.afterPass_seq op o r q
  | _ => rfl

/-! ### What runs of sequencer steps reach -/

/-- The sequencer alone takes s to t, with nothing between its steps. -/
def Reaches (s t : State) : Prop := ∃ n, s.seqSteps n = t

theorem Reaches.refl (s : State) : Reaches s s := ⟨0, rfl⟩

theorem Reaches.trans {s t u : State} (h : Reaches s t) (h' : Reaches t u) : Reaches s u := by
  obtain ⟨m, rfl⟩ := h
  obtain ⟨n, rfl⟩ := h'
  exact ⟨m + n, s.seqSteps_add m n⟩

/-- A stretch of line primitives and the step from the point after it (R36). -/
theorem reaches_resume (op : Instr) (o : Origin) (todo : List Prim) (pt : Point) (s : State) :
    Reaches (s.goto op o todo pt)
      ((s.performAll todo).1.resume op o (s.performAll todo).2 pt) := by
  refine ⟨todo.length + 1, ?_⟩
  rw [State.seqSteps_add, State.goto_stretch]
  exact State.resume_seq op o _ pt _ _

/-- The step from a point of the pseudocode. -/
theorem reaches_point (op : Instr) (o : Origin) (pt : Point) (s : State) :
    Reaches (s.goto op o [] pt) (s.resume op o [] pt) := reaches_resume op o [] pt s

/-- A stretch that samples nothing leaves the rest of the way to the next point. -/
theorem reaches_goto_append {op : Instr} {o : Origin} {ps : List Prim} {pt : Point} {s u : State}
    (h : s.performAll ps = (u, [])) (todo : List Prim) :
    Reaches (s.goto op o (ps ++ todo) pt) (u.goto op o todo pt) := by
  induction ps generalizing s with
  | nil => cases h; exact Reaches.refl _
  | cons p ps ih =>
    obtain ⟨hstate, hbits⟩ := Prod.mk.inj h
    obtain ⟨hbit, hrest⟩ := List.append_eq_nil_iff.mp hbits
    have hstep : Reaches (s.goto op o (p :: ps ++ todo) pt)
        ((s.perform p).1.goto op o (ps ++ todo) pt) := by
      refine ⟨1, ?_⟩
      rw [State.goto, List.cons_append]
      simp only [State.seqSteps, State.seqStep]
      rw [State.perform_seq, hbit]
      rfl
    exact hstep.trans (ih (Prod.ext hstate hrest))

theorem reaches_goto {op : Instr} {o : Origin} {todo : List Prim} {pt : Point} {s u : State}
    (h : s.performAll todo = (u, [])) : Reaches (s.goto op o todo pt) (u.goto op o [] pt) := by
  simpa using reaches_goto_append (op := op) (o := o) (pt := pt) h []

/-- The end of a command leaves the sequencer at `Idle` (R80). -/
theorem State.finish_seq (op : Instr) (o : Origin) (s : State) : (s.finish op o).seq = .idle := by
  cases o <;> rfl

/-- The end of a command is one step (R80). -/
theorem reaches_finish (op : Instr) (o : Origin) (s : State) :
    Reaches (s.goto op o [] .finish) (s.finish op o) := reaches_point op o .finish s

/-! ### Stretches and line routines -/

theorem State.performAll_writeBitPrims (s : State) (b : Bool) :
    s.performAll (writeBitPrims s.params b) = (s.writeBit b, []) := by
  rw [State.performAll_writeBit, State.writeBit_eq]

theorem State.performAll_readBitPrims (s : State) :
    s.performAll (readBitPrims s.params) = (s.readBit.1, [s.readBit.2]) := by
  rw [State.performAll_readBit, State.readBit_eq]

theorem State.performAll_writeBytePrims (s : State) (v : Byte) :
    s.performAll (writeBytePrims s.params v) = (s.writeByte v, []) := by
  rw [State.performAll_writeByte, State.writeByte_eq]

theorem State.performAll_readBytePrims (s : State) :
    (s.performAll (readBytePrims s.params)).1 = s.readByte.1 := by
  rw [State.performAll_readByte, State.readByte_state]

theorem State.byteOf_readBytePrims (s : State) :
    byteOf (s.performAll (readBytePrims s.params)).2 = s.readByte.2 := by
  rw [State.performAll_readByte, byteOf_samples]

theorem State.performAll_pairPrims (s : State) :
    s.performAll (pairPrims s.params) =
      (s.readBit.1.readBit.1, [s.readBit.2, s.readBit.1.readBit.2]) := by
  rw [pairPrims, State.performAll_append, State.performAll_readBitPrims]
  rw [← State.readBit_params s, State.performAll_readBitPrims]
  rfl

/-- The reset sequence and its assignments (R104). -/
theorem reaches_presenceKnown (op : Instr) (o : Origin) (s : State) :
    Reaches (s.goto op o (resetPrims s.params) .presence)
      (s.resetPresence.goto op o [] .presenceKnown) := by
  have h := reaches_resume op o (resetPrims s.params) .presence s
  rw [State.performAll_reset] at h
  rw [State.resetPresence_eq]
  exact h

/-! ### Read-ROM step by step (R181) -/

/-- Byte i of `ReadRom` (R181). -/
def State.readRomByte (b : RomTarget) (i : Nat) (s : State) : State :=
  s.readByte.1.romPut b i s.readByte.2

theorem readRomBytes_succ (b : RomTarget) (k i : Nat) (s : State) :
    readRomBytes b (k + 1) i s = readRomBytes b k (i + 1) (s.readRomByte b i) := rfl

@[simp] theorem State.readRomByte_params (b : RomTarget) (i : Nat) (s : State) :
    (s.readRomByte b i).params = s.params := by simp [State.readRomByte]

/-- One byte of `ReadRom`, and what comes after it. -/
theorem reaches_readRomByte (op : Instr) (o : Origin) (i : Nat) (s : State) :
    Reaches (s.goto op o (readBytePrims s.params) (.romByte i))
      (if i < 7 then
        (s.readRomByte (romTarget op) i).goto op o (readBytePrims s.params) (.romByte (i + 1))
      else (s.readRomByte (romTarget op) i).goto op o [] .romDone) := by
  have h := reaches_resume op o (readBytePrims s.params) (.romByte i) s
  rwa [State.performAll_readBytePrims, State.resume, State.byteOf_readBytePrims,
    State.readByte_params] at h

/-- `ReadRom`'s byte loop from byte i on (R181). -/
theorem reaches_romDone (op : Instr) (o : Origin) (k i : Nat) (s : State) (hk : i + k = 7) :
    Reaches (s.goto op o (readBytePrims s.params) (.romByte i))
      ((readRomBytes (romTarget op) (k + 1) i s).goto op o [] .romDone) := by
  induction k generalizing i s with
  | zero =>
    have hbyte := reaches_readRomByte op o i s
    rwa [if_neg (by omega)] at hbyte
  | succ k ih =>
    have hbyte := reaches_readRomByte op o i s
    have hrest := ih (i + 1) (s.readRomByte (romTarget op) i) (by omega)
    rw [if_pos (by omega)] at hbyte
    rw [State.readRomByte_params] at hrest
    exact hbyte.trans hrest

/-- `ReadRom` (R181): its first stretch also sends 0x33. -/
theorem reaches_readRom (op : Instr) (o : Origin) (s : State) :
    Reaches (s.goto op o (romPrims s.params) (.romByte 0))
      ((s.readRom (romTarget op)).goto op o [] .romDone) := by
  have hsend : Reaches (s.goto op o (romPrims s.params) (.romByte 0))
      ((s.writeByte readRomCmd).goto op o (readBytePrims s.params) (.romByte 0)) :=
    reaches_goto_append (s.performAll_writeBytePrims readRomCmd) _
  have hbytes := reaches_romDone op o 7 0 (s.writeByte readRomCmd) rfl
  rw [State.writeByte_params] at hbytes
  exact hsend.trans hbytes

/-! ### A search pass step by step (R152 to R158) -/

/-- What comes after the two read slots of a position (R153). -/
theorem reaches_afterPair (op : Instr) (o : Origin) (n : Nat) (s : State) :
    Reaches (s.goto op o (pairPrims s.params) (.pair n))
      (s.readBit.1.readBit.1.afterPair op o n s.readBit.2 s.readBit.1.readBit.2) := by
  have h := reaches_resume op o (pairPrims s.params) (.pair n) s
  rwa [State.performAll_pairPrims] at h

/-- One position of a pass (R153 to R157): the abort on {1,1}, or the end of the write slot. -/
theorem reaches_stepBit (op : Instr) (o : Origin) (n : Nat) (s : State) :
    Reaches (s.goto op o (pairPrims s.params) (.pair n))
      (if (s.stepBit n).2 then (s.stepBit n).1.goto op o [] (.written n)
      else (s.stepBit n).1.abortConflict.goto op o [] (.passDone .conflict)) := by
  have hpair := reaches_afterPair op o n s
  unfold State.afterPair at hpair
  unfold State.stepBit
  dsimp only
  split at hpair
  · rename_i hc
    rw [if_pos hc]
    exact hpair
  · rename_i hc
    rw [if_neg hc]
    refine hpair.trans (reaches_goto ?_)
    rw [← State.performAll_writeBitPrims]
    simp

/-- The position loop from position n on, when the rest of it goes on from the write slot (R152). -/
theorem reaches_searchBits {op : Instr} {o : Origin} {k n : Nat} {s : State}
    (hrest : Reaches ((s.stepBit n).1.goto op o [] (.written n))
      ((searchBits k (n + 1) (s.stepBit n).1).1.goto op o []
        (.passDone (searchBits k (n + 1) (s.stepBit n).1).2))) :
    Reaches (s.goto op o (pairPrims s.params) (.pair n))
      ((searchBits (k + 1) n s).1.goto op o [] (.passDone (searchBits (k + 1) n s).2)) := by
  have hstep := reaches_stepBit op o n s
  rw [searchBits]
  split at hstep
  · rename_i hok
    rw [if_pos hok]
    exact hstep.trans hrest
  · rename_i hconflict
    rw [if_neg hconflict]
    exact hstep

/-- The position loop once position n is written, with k positions left (R152). -/
theorem reaches_searchBits_of_written (op : Instr) (o : Origin) (k n : Nat) (s : State)
    (hn : n + k = 64) :
    Reaches (s.goto op o [] (.written n))
      ((searchBits k (n + 1) s).1.goto op o [] (.passDone (searchBits k (n + 1) s).2)) := by
  induction k generalizing n s with
  | zero =>
    have hlast := reaches_point op o (.written n) s
    rwa [State.resume, if_neg (by omega)] at hlast
  | succ k ih =>
    have hnext := reaches_point op o (.written n) s
    rw [State.resume, if_pos (by omega)] at hnext
    exact hnext.trans (reaches_searchBits (ih (n + 1) _ (by omega)))

theorem State.afterPresence_search {op : Instr} (h : Point.searchSent.belongsTo op = true)
    (o : Origin) (s : State) :
    s.afterPresence op o =
      if s.status.pd then s.goto op o (writeBytePrims s.params searchRomCmd) .searchSent
      else s.abortNoPres.goto op o [] (.passDone .noPres) := by
  cases op with
  | srchf | srchn | enum | enumc => rfl
  | reset | wbit | rbit | wbyte | rbyte | crcb | rdrom | poll => cases h

/-- A whole search pass (R152). -/
theorem reaches_searchPass {op : Instr} (o : Origin) (s : State)
    (h : Point.searchSent.belongsTo op = true) :
    Reaches (s.beginPass op o) (s.searchPass.1.goto op o [] (.passDone s.searchPass.2)) := by
  have hpresence : Reaches (s.beginPass op o) (s.clearSok.resetPresence.afterPresence op o) :=
    (reaches_presenceKnown op o s.clearSok.disarm).trans
      (reaches_point op o .presenceKnown s.clearSok.disarm.resetPresence)
  rw [State.afterPresence_search h] at hpresence
  unfold State.searchPass
  dsimp only
  split at hpresence
  · rename_i hpd
    rw [if_pos hpd]
    have hsend := reaches_goto (op := op) (o := o) (pt := .searchSent)
      (s.clearSok.resetPresence.performAll_writeBytePrims searchRomCmd)
    have hfirst := reaches_point op o .searchSent
      (s.clearSok.resetPresence.writeByte searchRomCmd)
    exact ((hpresence.trans hsend).trans hfirst).trans
      (reaches_searchBits (reaches_searchBits_of_written op o 63 1 _ rfl))
  · rename_i hpd
    rw [if_neg hpd]
    exact hpresence

/-! ### Enumerations step by step (R163) -/

/-- One round of the loop that runs a pass (R163). -/
theorem reaches_afterEnumPass {op : Instr} (o : Origin) {s : State} (h : op = .enum ∨ op = .enumc)
    (hgo : ¬ s.enumStops = true) :
    Reaches (s.goto op o [] .enumHead)
      ({ s with passes := s.passes + 1 }.searchPass.1.afterPass op o
        { s with passes := s.passes + 1 }.searchPass.2) := by
  have hhead : Reaches (s.goto op o [] .enumHead) (s.enumHead op o) :=
    reaches_point op o .enumHead s
  have own : Point.searchSent.belongsTo op = true := by rcases h with rfl | rfl <;> rfl
  rw [State.enumHead, if_neg hgo] at hhead
  exact (hhead.trans (reaches_searchPass o { s with passes := s.passes + 1 } own)).trans
    (reaches_point op o (.passDone _) _)

/-- `RunEnum`'s loop, with more rounds to go than passes that may still begin (R163). -/
theorem reaches_enumLoop {op : Instr} (o : Origin) (h : op = .enum ∨ op = .enumc) (k : Nat)
    (s : State) (hp : s.passes ≤ s.params.passLimit) (hk : s.params.passLimit < s.passes + k) :
    Reaches (s.goto op o [] .enumHead) ((enumLoop k s).goto op o [] .finish) := by
  induction k generalizing s with
  | zero => omega
  | succ k ih =>
    rw [enumLoop]
    split
    · rename_i hstop
      have hhead : Reaches (s.goto op o [] .enumHead) (s.enumHead op o) :=
        reaches_point op o .enumHead s
      rwa [State.enumHead, if_pos hstop] at hhead
    · rename_i hgo
      have hlimit := (State.not_enumStops hgo).2
      have hpass := reaches_afterEnumPass o h hgo
      rw [State.afterPass, if_pos h] at hpass
      dsimp only
      split at hpass
      · rename_i hok
        rw [if_pos hok]
        exact hpass.trans (ih _ (by simp; omega) (by simp; omega))
      · rename_i hno
        rw [if_neg hno]
        exact hpass

/-! ### Commands step by step -/

/-- SRCHF and SRCHN after their first lines (R151, R159). -/
theorem reaches_onePass {op : Instr} (o : Origin) (s : State) (h : op = .srchf ∨ op = .srchn) :
    Reaches (s.beginPass op o) (s.onePass.goto op o [] .finish) := by
  have own : Point.searchSent.belongsTo op = true := by rcases h with rfl | rfl <;> rfl
  have hpass := (reaches_searchPass o s own).trans
    (reaches_point op o (.passDone _) s.searchPass.1)
  rw [State.resume, State.afterPass, if_neg (by rcases h with rfl | rfl <;> decide)] at hpass
  exact hpass

/-- POLL after its first line, which clears ARM as `ResetPresence` does again (R105, R184). -/
theorem reaches_poll (o : Origin) (s : State) :
    Reaches (s.disarm.goto .poll o (resetPrims s.params) .presence)
      ((pollBody s).goto .poll o [] .finish) := by
  have hpresence : Reaches (s.disarm.goto .poll o (resetPrims s.params) .presence)
      (s.resetPresence.afterPresence .poll o) :=
    (reaches_presenceKnown .poll o s.disarm).trans
      (reaches_point .poll o .presenceKnown s.disarm.resetPresence)
  rw [State.afterPresence] at hpresence
  unfold pollBody
  dsimp only
  split at hpresence
  · rename_i hpd
    rw [if_pos hpd]
    have hrom := (reaches_readRom .poll o s.resetPresence.present).trans
      (reaches_point .poll o .romDone (s.resetPresence.present.readRom .pbuf))
    rw [State.present_params] at hrom
    exact hpresence.trans hrom
  · rename_i hpd
    rw [if_neg hpd]
    exact hpresence

/-- Every command, started by the host or by the autopoll, runs its pseudocode and its end (R75, R80,
R190). -/
theorem reaches_commandBody (i : Instr) (o : Origin) (s : State) :
    Reaches (s.goto i o [] .start) ((commandBody i s).finish i o) := by
  have hstart : Reaches (s.goto i o [] .start) (s.beginCommand i o) :=
    reaches_point i o .start s
  refine (hstart.trans ?_).trans (reaches_finish i o _)
  cases i with
  | reset =>
    exact (reaches_presenceKnown .reset o s).trans
      (reaches_point .reset o .presenceKnown s.resetPresence)
  | wbit => exact reaches_goto (s.disarm.performAll_writeBitPrims s.wbitOperand)
  | rbit =>
    have h := reaches_resume .rbit o (readBitPrims s.params) .bitRead s.disarm
    rwa [← State.disarm_params, State.performAll_readBitPrims] at h
  | wbyte => exact reaches_goto (s.disarm.performAll_writeBytePrims s.byteOperand)
  | rbyte =>
    have h := reaches_resume .rbyte o (readBytePrims s.params) .byteRead s.disarm
    rwa [← State.disarm_params, State.performAll_readBytePrims, State.resume,
      State.byteOf_readBytePrims] at h
  | crcb => exact Reaches.refl _
  | rdrom =>
    exact (reaches_readRom .rdrom o s.disarm).trans
      (reaches_point .rdrom o .romDone (s.disarm.readRom .rombuf))
  | srchf => exact reaches_onePass o s.clearSearch (.inl rfl)
  | srchn =>
    rw [State.beginCommand, commandBody, srchnBody]
    split
    · exact Reaches.refl _
    · exact reaches_onePass o s (.inr rfl)
  | enum => exact reaches_enumLoop o (.inl rfl) _ _ (Nat.zero_le _) (by simp)
  | enumc => exact reaches_enumLoop o (.inr rfl) _ _ (Nat.zero_le _) (by simp)
  | poll => exact reaches_poll o s

/-- Settles O15: acceptance, then the run of steps that takes the command through its pseudocode. -/
theorem commandRunIsItsSequencerSteps : Obligations.CommandRunIsItsSequencerSteps := by
  intro i s hb ha
  obtain ⟨n, hn⟩ := reaches_commandBody i .host (s.accept i .host)
  have hrun : (s.accept i .host).seqSteps n =
      (commandBody i (s.accept i .host)).finish i .host := hn
  refine ⟨n, ?_, ?_⟩
  · rw [exec_eq_hostCommand, hostCommand_idle i _ s hb ha, hrun]
  · rw [hrun, State.finish_seq]

/-! ### Every command ends (R165, R189) -/

/-- How far a point is from the end of its pass: each step leads to a point with a smaller rank, save
from a command's first line and from the head of the enumeration loop. -/
def Point.rank : Point → Nat
  | .start | .finish => 0
  | .bitRead | .byteRead | .romDone | .enumHead => 1
  | .passDone _ => 2
  | .written n => 2 * (64 - n) + 3
  | .pair n => 2 * (64 - n) + 4
  | .romByte i => (7 - i) + 2
  | .searchSent => 131
  | .presenceKnown => 132
  | .presence => 133

/-- Passes an enumeration may still begin, and one more before a command's first line. -/
def State.passesLeft (pt : Point) (s : State) : Nat :=
  if pt = .start then s.params.passLimit + 1 else s.params.passLimit - s.passes

/-- What is left of a command k line primitives before the point pt: passes, then points of the pass,
then primitives. -/
def State.remainingAt (pt : Point) (k : Nat) (s : State) : Nat ×ₗ Nat ×ₗ Nat :=
  toLex (s.passesLeft pt, toLex (pt.rank, k))

/-- What is left of the running command. -/
def State.remaining (s : State) : Nat ×ₗ Nat ×ₗ Nat :=
  match s.seq with
  | .idle => toLex (0, toLex (0, 0))
  | .run _ _ pos => s.remainingAt pos.next pos.todo.length

theorem State.remaining_of_run {s : State} {op : Instr} {o : Origin} {pos : Pos}
    (h : s.seq = .run op o pos) : s.remaining = s.remainingAt pos.next pos.todo.length := by
  simp only [State.remaining, h]

/-- A new pass, or the first line done: fewer passes are left. -/
theorem State.remaining_goto_lt_of_passesLeft {s u : State} {op : Instr} {o : Origin}
    {todo : List Prim} {pt pt' : Point} (h : u.passesLeft pt' < s.passesLeft pt) :
    (u.goto op o todo pt').remaining < s.remainingAt pt 0 :=
  Prod.Lex.toLex_lt_toLex.mpr (.inl h)

theorem State.remaining_goto_lt_of_start {s u : State} {op : Instr} {o : Origin}
    {todo : List Prim} {pt : Point} (hparams : u.params = s.params)
    (hpt : pt ≠ .start := by nofun) : (u.goto op o todo pt).remaining < s.remainingAt .start 0 := by
  apply State.remaining_goto_lt_of_passesLeft
  rw [State.passesLeft, State.passesLeft, if_neg hpt, if_pos rfl, hparams]
  omega

/-- Within a pass the points come in the order of their ranks. -/
theorem State.remaining_goto_lt_of_rank {s u : State} {op : Instr} {o : Origin}
    {todo : List Prim} {pt pt' : Point} (hrank : pt'.rank < pt.rank)
    (hparams : u.params = s.params := by simp) (hpasses : u.passes = s.passes := by simp)
    (hpt' : pt' ≠ .start := by nofun) :
    (u.goto op o todo pt').remaining < s.remainingAt pt 0 := by
  by_cases hpt : pt = .start
  · rw [hpt]
    exact State.remaining_goto_lt_of_start hparams hpt'
  · have hleft : u.passesLeft pt' = s.passesLeft pt := by
      rw [State.passesLeft, State.passesLeft, if_neg hpt, if_neg hpt', hparams, hpasses]
    exact Prod.Lex.toLex_lt_toLex.mpr
      (.inr ⟨hleft, Prod.Lex.toLex_lt_toLex.mpr (.inl hrank)⟩)

theorem State.remaining_beginCommand_lt (op : Instr) (o : Origin) (s : State) :
    (s.beginCommand op o).remaining < s.remainingAt .start 0 := by
  cases op with
  | srchn =>
    rw [State.beginCommand]
    split
    · exact State.remaining_goto_lt_of_start rfl
    · exact State.remaining_goto_lt_of_start rfl
  | _ => exact State.remaining_goto_lt_of_start rfl

theorem State.remaining_afterPresence_lt (op : Instr) (o : Origin) (s : State) :
    (s.afterPresence op o).remaining < s.remainingAt .presenceKnown 0 := by
  cases op with
  | reset => exact State.remaining_goto_lt_of_rank (by decide)
  | srchf | srchn | enum | enumc | poll =>
    rw [State.afterPresence]
    split
    · exact State.remaining_goto_lt_of_rank (by decide)
    · exact State.remaining_goto_lt_of_rank (by decide)
  | wbit | rbit | wbyte | rbyte | crcb | rdrom =>
    exact State.remaining_goto_lt_of_rank (by decide)

theorem State.remaining_afterRom_lt (op : Instr) (o : Origin) (s : State) :
    (s.afterRom op o).remaining < s.remainingAt .romDone 0 := by
  unfold State.afterRom
  split
  · exact State.remaining_goto_lt_of_rank (by decide)
  · exact State.remaining_goto_lt_of_rank (by decide)

theorem State.remaining_afterPair_lt (op : Instr) (o : Origin) (n : Nat) (a b : Bool) (s : State) :
    (s.afterPair op o n a b).remaining < s.remainingAt (.pair n) 0 := by
  unfold State.afterPair
  split
  · exact State.remaining_goto_lt_of_rank (by simp [Point.rank])
  · exact State.remaining_goto_lt_of_rank (by simp [Point.rank])

theorem State.remaining_afterPass_lt (op : Instr) (o : Origin) (r : PassResult) (s : State) :
    (s.afterPass op o r).remaining < s.remainingAt (.passDone r) 0 := by
  unfold State.afterPass
  split
  · split
    · exact State.remaining_goto_lt_of_rank (by simp [Point.rank])
    · exact State.remaining_goto_lt_of_rank (by simp [Point.rank])
  · exact State.remaining_goto_lt_of_rank (by simp [Point.rank])

/-- Each round of `RunEnum`'s loop begins a pass, and PASS_LIMIT bounds them (R163, R165). -/
theorem State.remaining_enumHead_lt {op : Instr} {o : Origin} {s : State}
    (h : s.passes ≤ s.params.passLimit) :
    (s.enumHead op o).remaining < s.remainingAt .enumHead 0 := by
  unfold State.enumHead
  split
  · exact State.remaining_goto_lt_of_rank (by decide)
  · rename_i hgo
    have hlimit := (State.not_enumStops hgo).2
    refine State.remaining_goto_lt_of_passesLeft ?_
    show s.params.passLimit - (s.passes + 1) < s.params.passLimit - s.passes
    omega

/-- A step from any point but the last leaves less of the command to do. -/
theorem State.remaining_resume_lt {op : Instr} {o : Origin} {got : List Bool} {pt : Point}
    {s : State} (h : s.passes ≤ s.params.passLimit) (hpt : pt ≠ .finish) :
    (s.resume op o got pt).remaining < s.remainingAt pt 0 := by
  cases pt with
  | start => exact s.remaining_beginCommand_lt op o
  | presence | bitRead | byteRead | searchSent =>
    exact State.remaining_goto_lt_of_rank (by decide)
  | presenceKnown => exact s.remaining_afterPresence_lt op o
  | romByte i =>
    rw [State.resume]
    split
    · exact State.remaining_goto_lt_of_rank (by simp only [Point.rank]; omega)
    · exact State.remaining_goto_lt_of_rank (by simp [Point.rank])
  | romDone => exact s.remaining_afterRom_lt op o
  | pair n => exact s.remaining_afterPair_lt op o n _ _
  | written n =>
    rw [State.resume]
    split
    · exact State.remaining_goto_lt_of_rank (by simp only [Point.rank]; omega)
    · exact State.remaining_goto_lt_of_rank (by simp [Point.rank])
  | passDone r => exact s.remaining_afterPass_lt op o r
  | enumHead => exact State.remaining_enumHead_lt h
  | finish => exact absurd rfl hpt

/-- A step of a running command ends it or leaves less to do. -/
theorem Inv.seqStep_progress {s : State} (h : Inv s) (hrun : s.seq ≠ .idle) :
    s.seqStep.seq = .idle ∨ s.seqStep.remaining < s.remaining := by
  unfold State.seqStep
  split
  · exact absurd ‹_› hrun
  · rename_i op o pos hs
    rw [State.remaining_of_run hs]
    obtain ⟨todo, got, pt⟩ := pos
    cases todo with
    | nil =>
      by_cases hpt : pt = .finish
      · subst hpt
        exact .inl (s.finish_seq op o)
      · exact .inr (State.remaining_resume_lt h.passes hpt)
    | cons p todo =>
      refine .inr ?_
      dsimp only
      rw [State.perform_eq]
      exact Prod.Lex.toLex_lt_toLex.mpr (.inr ⟨rfl, Prod.Lex.toLex_lt_toLex.mpr
        (.inr ⟨rfl, Nat.lt_succ_self _⟩)⟩)

/-- By induction on what is left of the running command (R165, R189). -/
theorem Inv.reaches_idle {s : State} (h : Inv s) : ∃ n, (s.seqSteps n).seq = .idle := by
  by_cases hidle : s.seq = .idle
  · exact ⟨0, hidle⟩
  · rcases h.seqStep_progress hidle with hend | hless
    · exact ⟨1, hend⟩
    · obtain ⟨n, hn⟩ := h.seqStep.reaches_idle
      exact ⟨n + 1, hn⟩
termination_by s.remaining
decreasing_by exact hless

/-- Settles O14, by the measure `State.remaining`. -/
theorem everyCommandEnds : Obligations.EveryCommandEnds := fun _ => Inv.reaches_idle

end Sys2Proof.Machine
end

section
/-!
PROOFS. The line (spec/40_line_reset.md): a line primitive as one step of the sequencer (R100 to
R102), samples and the ends of commands under the line protocol (R102, R128), and the command RESET
(R106).
-/

namespace Sys2Proof.Machine

/-! ### One line primitive (R100 to R102, R240) -/

theorem State.driveLow_eq (t : Nat) (s : State) :
    s.driveLow t = { s with drv := .low, env := s.env.after 0 [.low t] } := rfl

theorem State.release_eq (t : Nat) (s : State) :
    s.release t = { s with drv := .released, env := s.env.after 0 [.rel t] } := rfl

theorem State.sample_eq (s : State) :
    s.sample = ({ s with env := s.env.after 1 [.smp (s.env.sampleAt 0)] }, s.env.sampleAt 0) := rfl

/-- With a primitive left to perform, a sequencer step performs it and moves the position on. -/
theorem State.seqStep_of_prim {s : State} {op : Instr} {o : Origin} {p : Prim} {todo : List Prim}
    {got : List Bool} {pt : Point}
    (h : s.seq = .run op o { todo := p :: todo, got := got, next := pt }) :
    s.seqStep = { (s.perform p).1 with
      seq := .run op o { todo := todo, got := got ++ (s.perform p).2, next := pt } } := by
  simp only [State.seqStep, h]

/-- Settles O18, by the primitive: what it does to the line and the bits it samples. -/
theorem linePrimitiveIsOneStep : Obligations.LinePrimitiveIsOneStep := by
  intro s op o todo got pt t hin
  rw [step_of_no_input hin]
  refine ⟨fun hs => ?low, fun hs => ?rel, fun hs => ?smp⟩
  case low => rw [State.seqStep_of_prim hs, State.perform, State.driveLow_eq, List.append_nil]
  case rel => rw [State.seqStep_of_prim hs, State.perform, State.release_eq, List.append_nil]
  case smp => rw [State.seqStep_of_prim hs, State.perform, State.sample_eq]

/-! ### The line protocol (R102, R128) -/

/-- A step whose next input is the sequencer's, or that has none, is a sequencer step. -/
theorem step_of_sequencer {s : State}
    (h : s.env.inputs = [] ∨ ∃ rest, s.env.inputs = .seq :: rest) :
    ∃ l, step s = .next (s.withInputs l).seqStep := by
  rcases h with h | ⟨rest, h⟩
  · exact ⟨s.env.inputs, step_of_no_input h⟩
  · exact ⟨rest, step_of_input h⟩

/-- "It is called only while `h.DRV = 0`" (R102): only `Sample` takes a sample, and the line
protocol of the primitives left to perform has the line released before it. -/
theorem Inv.released_of_sampled {s : State} (h : Inv s)
    (hn : s.seqStep.env.nSamples ≠ s.env.nSamples) : s.drv = .released := by
  match hs : s.seq with
  | .idle => exact h.idleReleased hs
  | .run op o ⟨[], got, pt⟩ => exact (h.running hs).released
  | .run op o ⟨p :: todo, got, pt⟩ =>
    rw [State.seqStep_of_prim hs] at hn
    cases p with
    | low t | rel t => exact absurd rfl hn
    | smp =>
      have hline : primsOk s.drv (.smp :: todo) := (h.pos _ _ _ hs).line
      exact hline.1

/-- Settles O20: a sample needs the line released, and a step that reaches `Idle` reaches it in a
state of the invariant, which has the line released there. -/
theorem samplesAreTakenWithTheLineReleased : Obligations.SamplesAreTakenWithTheLineReleased := by
  intro s t h hin ht
  refine ⟨fun hn => ?sampled, fun _ hi => ?ended⟩
  case sampled =>
    obtain ⟨l, hl⟩ := step_of_sequencer hin
    cases hl.symm.trans ht
    have hinv : Inv (s.withInputs l) := h.withEnv _
    exact hinv.released_of_sampled hn
  case ended => exact (everyStepKeepsTheInvariant s t h ht).idleReleased hi

/-! ### RESET (R106) -/

/-- The pseudocode of RESET: the reset sequence, PD and ARM from its sample, and ERR_NOPRES without
a presence. -/
theorem resetBody_eq (s : State) :
    resetBody s =
      { s.afterLine 1 (resetTrace s.params (s.env.sampleAt 0)) with
        status := { s.status with pd := !s.env.sampleAt 0, arm := !s.env.sampleAt 0 }
        events := if s.env.sampleAt 0 then s.events ||| 0x10#8 else s.events } := by
  rw [resetBody, State.resetPresence_eq, State.resetOutcome]
  cases s.env.sampleAt 0 <;> rfl

/-- Settles O24: acceptance, the pseudocode of RESET, and the end that raises EV_DONE. -/
theorem resetDetectsPresence : Obligations.ResetDetectsPresence := by
  intro s hb
  rw [exec_eq_hostCommand, hostCommand_idle .reset _ s hb nofun, commandBody, resetBody_eq,
    State.finish_host, State.accept_host]
  cases s.env.sampleAt 0 with
  | false => rfl
  | true => simp [State.ended, opcode, BitVec.or_assoc]

end Sys2Proof.Machine
end

section
/-!
PROOFS. The bit and byte commands WBIT, RBIT, WBYTE and RBYTE (spec/41_bit_byte.md R124 to R127).
Each disarms, performs slots and may set DATA; acceptance and the end around that are one lemma.
-/

namespace Sys2Proof.Machine

/-! ### The pseudocode of each command -/

theorem wbitBody_eq (s : State) :
    wbitBody s = s.disarm.afterLine 0 (writeTrace s.params (s.data.getLsbD 0)) :=
  State.writeBit_eq s.disarm s.wbitOperand

theorem rbitBody_eq (s : State) :
    rbitBody s =
      { s.disarm.afterLine 1 (readTrace s.params (s.env.sampleAt 0)) with
        data := if s.env.sampleAt 0 then 0x01#8 else 0x00#8 } := by
  rw [rbitBody, State.readBit_eq]
  rfl

theorem wbyteBody_eq (s : State) :
    wbyteBody s = s.disarm.afterLine 0 (writeByteTrace s.params s.data) :=
  State.writeByte_eq s.disarm s.byteOperand

/-- The eight write slots of a byte one by one, least-significant bit first (R122). -/
theorem writeByteTrace_eq (p : Config.Params) (v : Byte) :
    writeByteTrace p v =
      writeTrace p (v.getLsbD 0) ++ writeTrace p (v.getLsbD 1) ++ writeTrace p (v.getLsbD 2) ++
        writeTrace p (v.getLsbD 3) ++ writeTrace p (v.getLsbD 4) ++ writeTrace p (v.getLsbD 5) ++
        writeTrace p (v.getLsbD 6) ++ writeTrace p (v.getLsbD 7) := by
  simp [writeByteTrace, List.range_succ]

theorem rbyteBody_eq (s : State) :
    rbyteBody s =
      { s.disarm.afterLine 8 (readsTrace s.params s.env 0 8) with data := s.disarm.readByte.2 } := by
  rw [rbyteBody, State.readByte_state]
  rfl

/-! ### The whole command -/

/-- A command whose pseudocode disarms, takes k samples in the phases ps and leaves v in DATA, run
from idle (R76, R77, R80, R105). -/
theorem exec_of_slots {i : Instr} {s : State} {k : Nat} {ps : List Phase} {v : Byte}
    (hb : s.status.busy = false) (hr : i ≠ .rdrom) (hp : i ≠ .poll)
    (hbody : commandBody i (s.accept i .host) =
      { (s.accept i .host).disarm.afterLine k ps with data := v }) :
    exec i s = .next
      { s.ended (opcode i) k ps 0x08#8 with
        data := v
        status := { s.status with busy := false, arm := false } } := by
  rw [exec_eq_hostCommand, hostCommand_idle i _ s hb (fun h => absurd h hr), hbody,
    State.finish_host, if_neg hp]
  rfl

/-- Settles O25: one write slot, with DATA left as it was. -/
theorem wbitWritesOneSlot : Obligations.WbitWritesOneSlot := fun _ hb =>
  exec_of_slots hb nofun nofun (wbitBody_eq _)

/-- Settles O26: one read slot, whose bit becomes the whole of DATA. -/
theorem rbitReadsOneSlot : Obligations.RbitReadsOneSlot := fun _ hb =>
  exec_of_slots hb nofun nofun (rbitBody_eq _)

/-- Settles O27: the slots of `WriteByte`, with DATA left as it was. -/
theorem wbyteWritesEightSlots : Obligations.WbyteWritesEightSlots := by
  intro s hb
  rw [← writeByteTrace_eq]
  exact exec_of_slots hb nofun nofun (wbyteBody_eq _)

/-- Settles O28: the byte in DATA is the one `ReadByte` returns, whose bits are the eight samples. -/
theorem rbyteReadsEightSlots : Obligations.RbyteReadsEightSlots := by
  intro s hb
  refine ⟨(s.accept .rbyte .host).disarm.readByte.2, fun i hi => ?bit, ?run⟩
  case bit =>
    have hreads : ReadsByte s.env 0 (s.accept .rbyte .host).disarm.readByte.2 :=
      State.readByte_reads _
    rw [hreads i hi, Nat.zero_add]
  case run => exact exec_of_slots hb nofun nofun (rbyteBody_eq _)

end Sys2Proof.Machine
end

section
/-!
PROOFS. The CRC8 (spec/42_crc8.md): the laws R144 to R146 from one fact, that `crc8_byte` is linear in
both arguments at once, the command CRCB (R143), and who may change the accumulator (R142).
-/

namespace Sys2Proof.Machine

/-! ### `crc8_byte` is linear (R146) -/

/-- What the mix bit feeds back into the shifted register (R140). -/
def crcFeedback (mix : Bool) : Byte := if mix then 0x8C#8 else 0x00#8

theorem crcBit_eq (c : Byte) (b : Bool) :
    crcBit c b = (c >>> 1) ^^^ crcFeedback (c.getLsbD 0 ^^ b) := by
  unfold crcBit crcFeedback
  split
  · rfl
  · exact BitVec.xor_zero.symm

theorem crcFeedback_xor : ∀ m m' : Bool,
    crcFeedback (m ^^ m') = crcFeedback m ^^^ crcFeedback m' := by decide

/-- The register and the input bit enter one step by exclusive or only. -/
theorem crcBit_xor (c c' : Byte) (b b' : Bool) :
    crcBit (c ^^^ c') (b ^^ b') = crcBit c b ^^^ crcBit c' b' := by
  simp only [crcBit_eq, BitVec.ushiftRight_xor_distrib, BitVec.getLsbD_xor, crcFeedback_xor]
  ac_rfl

theorem foldl_crcBit_xor (is : List Nat) (c c' d d' : Byte) :
    is.foldl (fun r i => crcBit r ((d ^^^ d').getLsbD i)) (c ^^^ c') =
      is.foldl (fun r i => crcBit r (d.getLsbD i)) c ^^^
        is.foldl (fun r i => crcBit r (d'.getLsbD i)) c' := by
  induction is generalizing c c' with
  | nil => rfl
  | cons i is ih => rw [List.foldl_cons, BitVec.getLsbD_xor, crcBit_xor, ih]; rfl

/-- The register and the input byte enter `crc8_byte` by exclusive or only (R146). -/
theorem crc8Byte_xor (c c' d d' : Byte) :
    crc8Byte (c ^^^ c') (d ^^^ d') = crc8Byte c d ^^^ crc8Byte c' d' :=
  foldl_crcBit_xor _ c c' d d'

/-! ### `crc8_byte` is zero on equal arguments only (R145) -/

/-- "Each step's mix bit is 0 when the input byte equals the register" (R145), so the register is only
shifted. -/
theorem foldl_crcBit_self (c : Byte) (n : Nat) :
    (List.range n).foldl (fun r i => crcBit r (c.getLsbD i)) c = c >>> n := by
  induction n with
  | zero => rfl
  | succ n ih =>
    rw [List.range_succ, List.foldl_append, ih]
    simp [crcBit, BitVec.shiftRight_add]

theorem crc8Byte_self (c : Byte) : crc8Byte c c = 0x00#8 :=
  (foldl_crcBit_self c 8).trans (BitVec.ushiftRight_eq_zero (Nat.le_refl 8))

theorem crc8Byte_eq_xor_zero (c d : Byte) : crc8Byte c d = crc8Byte (c ^^^ d) 0x00#8 := by
  have h := crc8Byte_xor c d d d
  rwa [crc8Byte_self, BitVec.xor_self, BitVec.xor_zero, eq_comm] at h

/-- The mix bit stays readable in bit 7, so a step loses no bit of the register. -/
theorem eq_zero_of_crcBit_false : ∀ c : Byte, crcBit c false = 0x00#8 → c = 0x00#8 := by decide

theorem eq_zero_of_foldl_crcBit_false (is : List Nat) {c : Byte}
    (h : is.foldl (fun r _ => crcBit r false) c = 0x00#8) : c = 0x00#8 := by
  induction is generalizing c with
  | nil => exact h
  | cons i is ih => exact eq_zero_of_crcBit_false c (ih h)

theorem eq_zero_of_crc8Byte_zero {c : Byte} (h : crc8Byte c 0x00#8 = 0x00#8) : c = 0x00#8 := by
  simp only [crc8Byte, BitVec.getLsbD_zero] at h
  exact eq_zero_of_foldl_crcBit_false _ h

/-- `crc8_byte` depends on the exclusive or of its arguments, and no two values of it give the same
result. -/
theorem crc8Byte_eq_iff {c c' d d' : Byte} :
    crc8Byte c d = crc8Byte c' d' ↔ c ^^^ d = c' ^^^ d' := by
  constructor
  · intro h
    have hzero : crc8Byte ((c ^^^ d) ^^^ (c' ^^^ d')) 0x00#8 = 0x00#8 := by
      have hxor := crc8Byte_xor (c ^^^ d) (c' ^^^ d') 0x00#8 0x00#8
      rwa [← crc8Byte_eq_xor_zero, ← crc8Byte_eq_xor_zero, h, BitVec.xor_self,
        BitVec.xor_self] at hxor
    exact BitVec.xor_eq_zero_iff.mp (eq_zero_of_crc8Byte_zero hzero)
  · intro h
    rw [crc8Byte_eq_xor_zero c, h, ← crc8Byte_eq_xor_zero]

/-- The rest of the bytes tells two registers apart. -/
theorem foldl_crc8Byte_injective (bs : List Byte) {c c' : Byte}
    (h : bs.foldl crc8Byte c = bs.foldl crc8Byte c') : c = c' := by
  induction bs generalizing c c' with
  | nil => exact h
  | cons b bs ih => exact (BitVec.xor_left_inj b).mp (crc8Byte_eq_iff.mp (ih h))

theorem crc8Byte_eq_zero_iff {c d : Byte} : crc8Byte c d = 0x00#8 ↔ c = d := by
  rw [← crc8Byte_self d, crc8Byte_eq_iff, BitVec.xor_left_inj]

/-! ### Identifiers (R141, R144, R145) -/

theorem validRom_iff (buf : Ident) : validRom buf = true ↔ crc8 (buf.toList.take 7) = buf[7] :=
  beq_iff_eq

theorem toList_eq_take_append (buf : Ident) :
    buf.toList = buf.toList.take 7 ++ [buf[7]] := by
  have hlen : buf.toList.length = 8 := buf.length_toList
  calc buf.toList = buf.toList.take (7 + 1) := (List.take_of_length_le hlen.le).symm
    _ = buf.toList.take 7 ++ [buf[7]] := List.take_succ_eq_append_getElem (by omega)

theorem crc8_toList (buf : Ident) :
    crc8 buf.toList = crc8Byte (crc8 (buf.toList.take 7)) buf[7] :=
  (congrArg crc8 (toList_eq_take_append buf)).trans List.foldl_append

/-- A valid identifier leaves the CRC8 register at zero (R145). -/
theorem validRom_iff_crc8_eq_zero (buf : Ident) :
    validRom buf = true ↔ crc8 buf.toList = 0x00#8 := by
  rw [validRom_iff, crc8_toList, crc8Byte_eq_zero_iff]

/-- Settles O30: the check compares byte 7 with the CRC8 of the payload. -/
theorem crcRoundTrip : Obligations.CrcRoundTrip := fun buf h => (validRom_iff buf).mpr h.symm

/-- Settles O31: the last step of the CRC8 is zero exactly when the register equals byte 7. -/
theorem crcResidueOfAValidIdentifier : Obligations.CrcResidueOfAValidIdentifier :=
  ⟨validRom_iff_crc8_eq_zero, crc8Byte_self⟩

/-! ### Errors in one byte (R146) -/

/-- A change of one byte that the CRC8 does not show is no change: from the byte changed on, the two
registers differ. -/
theorem set_eq_of_foldl_crc8Byte_eq {bs : List Byte} {i : Nat} {c v : Byte}
    (h : (bs.set i v).foldl crc8Byte c = bs.foldl crc8Byte c) : bs.set i v = bs := by
  induction bs generalizing i c with
  | nil => rfl
  | cons b bs ih =>
    cases i with
    | zero =>
      have hregister : crc8Byte c v = crc8Byte c b := foldl_crc8Byte_injective bs h
      rw [List.set_cons_zero, (BitVec.xor_right_inj c).mp (crc8Byte_eq_iff.mp hregister)]
    | succ i => rw [List.set_cons_succ, ih h]

/-- Two valid identifiers that differ in one byte at most are equal. -/
theorem setIfInBounds_eq_of_validRom {buf : Ident} {i : Nat} {v : Byte}
    (h : validRom buf = true) (h' : validRom (buf.setIfInBounds i v) = true) :
    buf.setIfInBounds i v = buf := by
  rw [validRom_iff_crc8_eq_zero] at h h'
  rw [Vector.toList_setIfInBounds] at h'
  apply Vector.toList_inj.mp
  rw [Vector.toList_setIfInBounds]
  exact set_eq_of_foldl_crc8Byte_eq (h'.trans h.symm)

/-- Settles O32: the bit that was inverted stands in one byte, and it would have to be as before. -/
theorem crcDetectsEverySingleBitError : Obligations.CrcDetectsEverySingleBitError := by
  refine ⟨crc8Byte_eq_xor_zero, fun c d => crc8Byte_xor c d 0x00#8 0x00#8, ?_⟩
  intro buf n h1 h2 hv
  rw [Bool.eq_false_iff]
  intro hv'
  have hsame : romSetBit buf n (!romBit buf n) = buf := setIfInBounds_eq_of_validRom hv hv'
  have hbit := romBit_romSetBit buf n n (!romBit buf n) h1 h2 h1 h2
  rw [hsame, if_pos rfl] at hbit
  exact Bool.not_ne_self _ hbit.symm

/-! ### CRCB (R143) -/

/-- Settles O29: acceptance, the update of CRC, and the end that raises EV_DONE. -/
theorem crcbUpdatesTheAccumulator : Obligations.CrcbUpdatesTheAccumulator := by
  intro s hb
  rw [exec_eq_hostCommand, hostCommand_idle .crcb _ s hb nofun, State.finish_host, State.accept_host]
  rfl

/-! ### What a command decides leaves CRC alone (R142) -/

@[simp] theorem State.raiseIf_crc (c : Bool) (e : Event) (s : State) :
    (s.raiseIf c e).crc = s.crc := by cases c <;> rfl

@[simp] theorem State.romPut_crc (b : RomTarget) (i : Nat) (v : Byte) (s : State) :
    (s.romPut b i v).crc = s.crc := by cases b <;> rfl

@[simp] theorem State.resetOutcome_crc (s : State) : s.resetOutcome.crc = s.crc := by
  unfold State.resetOutcome
  split <;> rfl

/-- The check of ROMBUF has a register of its own (R142). -/
@[simp] theorem State.rdromOutcome_crc (s : State) : s.rdromOutcome.crc = s.crc := by
  rw [State.rdromOutcome, State.raiseIf_crc]

@[simp] theorem State.removed_crc (s : State) : s.removed.crc = s.crc := by
  unfold State.removed
  split <;> rfl

@[simp] theorem State.present_crc (s : State) : s.present.crc = s.crc := by
  unfold State.present
  split <;> rfl

/-- The check of h.PBUF has a register of its own (R142). -/
@[simp] theorem State.pollOutcome_crc (s : State) : s.pollOutcome.crc = s.crc := by
  unfold State.pollOutcome State.adopt
  split
  · split <;> rfl
  · rfl

@[simp] theorem State.abortNoPres_crc (s : State) : s.abortNoPres.crc = s.crc := rfl

@[simp] theorem State.abortConflict_crc (s : State) : s.abortConflict.crc = s.crc := rfl

@[simp] theorem State.reportCrc_crc (r : PassResult) (s : State) : (s.reportCrc r).crc = s.crc :=
  State.raiseIf_crc _ _ s

@[simp] theorem State.insertRom_crc (s : State) : s.insertRom.crc = s.crc := by
  unfold State.insertRom
  split <;> rfl

@[simp] theorem State.takeBranch_crc (n : Nat) (a b : Bool) (s : State) :
    (s.takeBranch n a b).1.crc = s.crc := by
  unfold State.takeBranch
  split
  · rfl
  · split <;> rfl

@[simp] theorem State.perform_crc (p : Prim) (s : State) : (s.perform p).1.crc = s.crc := by
  rw [State.perform_eq]

@[simp] theorem State.finish_crc (op : Instr) (o : Origin) (s : State) :
    (s.finish op o).crc = s.crc := State.raiseIf_crc _ _ _

/-! ### Steps of a sequencer that does not run CRCB (R142) -/

/-- The sequencer is at `Idle`, or the command it runs is not CRCB. -/
def NotInCrcb (s : State) : Prop := ∀ o pos, s.seq ≠ .run .crcb o pos

/-- From s to t, CRC stayed and CRCB was not started. -/
structure KeepsCrc (s t : State) : Prop where
  crc : t.crc = s.crc
  notInCrcb : NotInCrcb t

theorem KeepsCrc.trans {s t u : State} (h : KeepsCrc s t) (h' : KeepsCrc t u) : KeepsCrc s u :=
  ⟨h'.crc.trans h.crc, h'.notInCrcb⟩

theorem notInCrcb_of_run {s : State} {op : Instr} {o : Origin} {pos : Pos}
    (hop : op ≠ .crcb) (h : s.seq = .run op o pos) : NotInCrcb s := by
  intro o' pos' h'
  cases h.symm.trans h'
  exact hop rfl

theorem NotInCrcb.op_ne {s : State} {op : Instr} {o : Origin} {pos : Pos}
    (h : NotInCrcb s) (hs : s.seq = .run op o pos) : op ≠ .crcb := by
  rintro rfl
  exact h o pos hs

section OtherCommand

variable {op : Instr} (hop : op ≠ .crcb)
include hop

theorem KeepsCrc.goto {s u : State} {o : Origin} {todo : List Prim} {pt : Point}
    (h : u.crc = s.crc := by simp) : KeepsCrc s (u.goto op o todo pt) :=
  ⟨h, notInCrcb_of_run hop rfl⟩

theorem State.beginCommand_keepsCrc (o : Origin) (s : State) : KeepsCrc s (s.beginCommand op o) := by
  cases op with
  | crcb => exact absurd rfl hop
  | srchn =>
    rw [State.beginCommand]
    split
    · exact .goto hop
    · exact .goto hop rfl
  | _ => exact .goto hop rfl

theorem State.afterPresence_keepsCrc (o : Origin) (s : State) :
    KeepsCrc s (s.afterPresence op o) := by
  cases op with
  | reset => exact .goto hop
  | srchf | srchn | enum | enumc | poll =>
    rw [State.afterPresence]
    split
    · exact .goto hop
    · exact .goto hop
  | wbit | rbit | wbyte | rbyte | crcb | rdrom => exact .goto hop

theorem State.afterRom_keepsCrc (o : Origin) (s : State) : KeepsCrc s (s.afterRom op o) := by
  unfold State.afterRom
  split
  · exact .goto hop
  · exact .goto hop

theorem State.afterPair_keepsCrc (o : Origin) (n : Nat) (a b : Bool) (s : State) :
    KeepsCrc s (s.afterPair op o n a b) := by
  unfold State.afterPair
  split
  · exact .goto hop rfl
  · exact .goto hop

theorem State.afterPass_keepsCrc (o : Origin) (r : PassResult) (s : State) :
    KeepsCrc s (s.afterPass op o r) := by
  unfold State.afterPass
  split
  · split
    · exact .goto hop
    · exact .goto hop
  · exact .goto hop

theorem State.enumHead_keepsCrc (o : Origin) (s : State) : KeepsCrc s (s.enumHead op o) := by
  unfold State.enumHead
  split
  · exact .goto hop
  · exact .goto hop rfl

theorem State.resume_keepsCrc (o : Origin) (got : List Bool) (pt : Point) (s : State) :
    KeepsCrc s (s.resume op o got pt) := by
  cases pt with
  | start => exact s.beginCommand_keepsCrc hop o
  | presence | bitRead | byteRead | searchSent => exact .goto hop rfl
  | presenceKnown => exact s.afterPresence_keepsCrc hop o
  | romByte i =>
    rw [State.resume]
    split
    · exact .goto hop
    · exact .goto hop
  | romDone => exact s.afterRom_keepsCrc hop o
  | pair n => exact s.afterPair_keepsCrc hop o n _ _
  | written n =>
    rw [State.resume]
    split
    · exact .goto hop
    · exact .goto hop
  | passDone r => exact s.afterPass_keepsCrc hop o r
  | enumHead => exact s.enumHead_keepsCrc hop o
  | finish =>
    refine ⟨s.finish_crc op o, fun o' pos hs => ?_⟩
    rw [State.resume, State.finish_seq] at hs
    cases hs

end OtherCommand

/-- A step of the sequencer: the autopoll it may start is no CRCB. -/
theorem NotInCrcb.seqStep {s : State} (h : NotInCrcb s) : KeepsCrc s s.seqStep := by
  unfold State.seqStep
  split
  · split
    · exact ⟨rfl, notInCrcb_of_run (op := .poll) nofun rfl⟩
    · exact ⟨rfl, h⟩
  · rename_i op o pos hs
    split
    · exact s.resume_keepsCrc (h.op_ne hs) o _ _
    · exact ⟨s.perform_crc _, notInCrcb_of_run (h.op_ne hs) rfl⟩

theorem NotInCrcb.seqSteps {s : State} (h : NotInCrcb s) (n : Nat) : KeepsCrc s (s.seqSteps n) := by
  induction n generalizing s with
  | zero => exact ⟨rfl, h⟩
  | succ n ih => exact h.seqStep.trans (ih h.seqStep.notInCrcb)

/-- A command other than CRCB, run whole: it is its acceptance and a run of sequencer steps (R81). -/
theorem exec_crc {i : Instr} {s t : State} (hi : i ≠ .crcb) (h : exec i s = .next t) :
    t.crc = s.crc := by
  rw [exec_eq_hostCommand] at h
  cases h
  unfold hostCommand
  split
  · rfl
  · split
    · obtain ⟨n, hn⟩ := reaches_commandBody i .host (s.accept i .host)
      have hrun : KeepsCrc (s.accept i .host)
          (((s.accept i .host).goto i .host [] .start).seqSteps n) :=
        NotInCrcb.seqSteps (notInCrcb_of_run hi rfl) n
      rw [hn] at hrun
      exact hrun.crc
    · rfl

/-! ### The host's side (R142, R51) -/

theorem eq_of_addrReg_crc {a : Addr} (h : addrReg a = .crc) : a = 0x06#6 := by
  have hname : addrReg a ≠ .reserved := by rw [h]; nofun
  rw [← regAddr_addrReg a hname, h, regAddr]

theorem State.dispatch_crc (v : Byte) (s : State) : (s.dispatch v).crc = s.crc := by
  unfold State.dispatch
  split
  · rfl
  · split
    · rfl
    · split <;> rfl

theorem State.memWrite_crc_of_ne {r : Reg} (v : Byte) (s : State) (hr : r ≠ .crc) :
    (s.memWrite r v).crc = s.crc := by
  cases r with
  | cmd => exact s.dispatch_crc v
  | crc => exact absurd rfl hr
  | data => rw [State.memWrite_data]
  | _ => rfl

theorem State.memRead_crc (a : Addr) (s : State) : (s.memRead a).2.crc = s.crc := by
  unfold State.memRead
  dsimp only
  split <;> rfl

/-- The only access that changes CRC is a write to its address. -/
theorem eq_write_of_hostAccess_crc_ne {acc : HostAccess} {s t : State}
    (ht : s.hostAccess acc = .next t) (hne : t.crc ≠ s.crc) : ∃ v, acc = .write 0x06#6 1 v := by
  cases acc with
  | read a width =>
    rw [State.hostAccess] at ht
    split at ht
    · cases ht
      exact absurd (s.memRead_crc a) hne
    · cases ht
  | write a width v =>
    rw [State.hostAccess] at ht
    split at ht
    · rename_i hwidth
      cases ht
      have hreg : addrReg a = .crc := Decidable.not_not.mp (mt (s.memWrite_crc_of_ne v) hne)
      exact ⟨v, by rw [eq_of_addrReg_crc hreg, hwidth]⟩
    · cases ht

theorem exists_decode_of_hostWord {w : HostWord} {s t : State} (ht : s.hostWord w = .next t) :
    ∃ acc, decodeHostWord w = some acc ∧ s.hostAccess acc = .next t := by
  unfold State.hostWord at ht
  split at ht
  · exact ⟨_, ‹_›, ht⟩
  · cases ht

/-- The only command value that changes CRC is CRCB's opcode. -/
theorem eq_opcode_of_command_crc_ne {v : Byte} {s t : State} (ht : s.command v = .next t)
    (hne : t.crc ≠ s.crc) : v = 0x06#8 := by
  rcases decodeOpcode_illegal_or_ok v with hv | ⟨i, hv, hi⟩
  · rw [State.command_of_illegal s hv] at ht
    cases ht
    exact absurd rfl hne
  · rw [State.command_of_opcode s hv] at ht
    obtain rfl : i = .crcb := Decidable.not_not.mp fun h => hne (exec_crc h ht)
    exact hi.symm

theorem exists_run_of_seqStep_crc_ne {s : State} (hne : s.seqStep.crc ≠ s.crc) :
    ∃ o pos, s.seq = .run .crcb o pos := by
  by_contra hno
  exact hne (NotInCrcb.seqStep fun o pos hs => hno ⟨o, pos, hs⟩).crc

/-- Settles O33, by what the step takes: no input (the sequencer moves) or the next input. -/
theorem onlyCrcbAndTheHostChangeCrc : Obligations.OnlyCrcbAndTheHostChangeCrc := by
  intro s t ht hne
  match hin : s.env.inputs with
  | [] =>
    cases (step_of_no_input hin).symm.trans ht
    exact .inr (.inr (.inr (.inr ⟨.inl rfl, exists_run_of_seqStep_crc_ne hne⟩)))
  | inp :: rest =>
    rw [step_of_input hin] at ht
    cases inp with
    | seq =>
      cases ht
      exact .inr (.inr (.inr (.inr ⟨.inr ⟨rest, rfl⟩,
        exists_run_of_seqStep_crc_ne (s := s.withInputs rest) hne⟩)))
    | access acc =>
      obtain ⟨v, rfl⟩ := eq_write_of_hostAccess_crc_ne ht hne
      exact .inr (.inl ⟨v, rest, rfl⟩)
    | host w =>
      obtain ⟨acc, hw, hacc⟩ := exists_decode_of_hostWord ht
      obtain ⟨v, rfl⟩ := eq_write_of_hostAccess_crc_ne hacc hne
      exact .inr (.inr (.inl ⟨w, v, rest, rfl, hw⟩))
    | command v =>
      obtain rfl := eq_opcode_of_command_crc_ne ht hne
      exact .inl ⟨rest, rfl⟩
    | rst => exact .inr (.inr (.inr (.inl ⟨rest, rfl⟩)))
    | elapse us =>
      cases ht
      exact absurd rfl hne

end Sys2Proof.Machine
end

section
/-!
PROOFS. The commands SRCHF and SRCHN (spec/43_search.md R151 to R159): one pass from LD = 0 or from
the LD the pass before left, by how the pass ends, and SRCHN's exit without a pass.
-/

namespace Sys2Proof.Machine

/-- The end of a host command other than POLL (R80). -/
def State.endHost (s : State) : State :=
  { s with
    seq := .idle
    status := { s.status with busy := false }
    events := s.events ||| 0x08#8 }

theorem State.finish_host_of_ne_poll {op : Instr} (h : op ≠ .poll) (s : State) :
    s.finish op .host = s.endHost := by
  rw [State.finish_host, if_neg h]
  rfl

/-- A command whose acceptance asks for no ARM and whose end leaves the autopoll timer, run from
idle. -/
theorem exec_of_idle {i : Instr} {s : State} (hb : s.status.busy = false) (hr : i ≠ .rdrom)
    (hp : i ≠ .poll) : exec i s = .next (commandBody i (s.accept i .host)).endHost := by
  rw [exec_eq_hostCommand, hostCommand_idle i _ s hb (fun h => absurd h hr),
    State.finish_host_of_ne_poll hp]

/-! ### The pass of SRCHF and SRCHN -/

/-- Where the pass of SRCHF or SRCHN begins: the command accepted, LASTDEV = 0 and LD as given. -/
def State.searchStart (i : Instr) (ld : Byte) (s : State) : State :=
  { s.accept i .host with ld := ld, status := { s.status with busy := true, lastdev := false } }

/-- SRCHN with LASTDEV = 0 leaves LD and LASTDEV as they are (R159). -/
theorem State.searchStart_srchn {s : State} (h : s.status.lastdev = false) :
    s.searchStart .srchn s.ld = s.accept .srchn .host := by
  rw [State.searchStart, ← h]
  rfl

/-- SRCHF runs its pass from LD = 0, SRCHN from the LD it finds (R151, R159). -/
theorem exec_search {i : Instr} {s : State} {ld : Nat}
    (h : (i = .srchf ∧ ld = 0) ∨ (i = .srchn ∧ s.status.lastdev = false ∧ ld = s.ld.toNat))
    (hb : s.status.busy = false) :
    ∃ l : Byte, l.toNat = ld ∧ exec i s = .next (s.searchStart i l).onePass.endHost := by
  rcases h with ⟨rfl, rfl⟩ | ⟨rfl, hl, rfl⟩
  · exact ⟨0x00#8, rfl, exec_of_idle hb (by decide) (by decide)⟩
  · have hpass : srchnBody (s.accept .srchn .host) = (s.accept .srchn .host).onePass :=
      if_neg (ne_true_of_eq_false hl)
    refine ⟨s.ld, rfl, ?_⟩
    rw [exec_of_idle hb (by decide) (by decide), commandBody, hpass, State.searchStart_srchn hl]

/-- The report of a completed pass's CRC check (R151, R159). -/
theorem State.reportCrc_ok (s : State) :
    s.reportCrc .ok = { s with
      events := s.events ||| (if s.status.crcok then 0x00#8 else 0x20#8) } := by
  cases hc : s.status.crcok with
  | true => simp [State.reportCrc, State.raiseIf, hc]
  | false => simp [State.reportCrc, State.raiseIf, hc, State.raise, Event.mask, Event.code]

/-- Settles O35: SRCHN's first test, then its end. -/
theorem srchnAfterTheLastDeviceDoesNothing : Obligations.SrchnAfterTheLastDeviceDoesNothing := by
  intro s hb hl
  have hexit : srchnBody (s.accept .srchn .host) = (s.accept .srchn .host).clearSok := if_pos hl
  rw [exec_of_idle hb (by decide) (by decide), commandBody, hexit]
  rfl

/-- Settles O36: the pass ends at its presence sample. -/
theorem searchWithoutPresence : Obligations.SearchWithoutPresence := by
  intro i s hi hb hpres
  obtain ⟨ld, h⟩ : ∃ ld : Nat, (i = .srchf ∧ ld = 0) ∨
      (i = .srchn ∧ s.status.lastdev = false ∧ ld = s.ld.toNat) := by
    rcases hi with hf | ⟨hn, hl⟩
    · exact ⟨0, .inl ⟨hf, rfl⟩⟩
    · exact ⟨s.ld.toNat, .inr ⟨hn, hl, rfl⟩⟩
  obtain ⟨l, -, hexec⟩ := exec_search h hb
  rw [hexec, State.onePass, (s.searchStart i l).searchPass_noPres hpres]
  rfl

/-- Settles O37: the completed pass of `searchPass_ok`, then the report of its CRC check. -/
theorem searchPassTakesTheBranches : Obligations.SearchPassTakesTheBranches := by
  intro i s ld h hb hpres hanswered
  obtain ⟨l, rfl, hexec⟩ := exec_search h hb
  obtain ⟨buf, z, hbits, hz, hpass⟩ := (s.searchStart i l).searchPass_ok hpres
    (fun n h1 h64 => Bool.eq_false_iff.mpr fun hx =>
      hanswered n h1 h64 (Bool.and_eq_true_iff.mp hx))
  refine ⟨buf, z, hbits, hz, ?_⟩
  have hevents : s.events ||| (if validRom buf then 0x00#8 else 0x20#8) ||| 0x08#8 =
      s.events ||| (if validRom buf then 0x08#8 else 0x28#8) := by
    cases validRom buf <;> simp [BitVec.or_assoc]
  rw [hexec, State.onePass, hpass, State.reportCrc_ok, State.ended, ← hevents]
  rfl

/-- Settles O38: the aborted pass of `searchPass_conflict`, of which no CRC check is reported. -/
theorem searchPassAbortsOnConflict : Obligations.SearchPassAbortsOnConflict := by
  intro i s ld m h hb hpres h1 h64 hanswered hid hcomp
  obtain ⟨l, rfl, hexec⟩ := exec_search h hb
  obtain ⟨buf, z, hbits, -, hpass⟩ := (s.searchStart i l).searchPass_conflict m hpres h1 h64
    (fun n hn hm => Bool.eq_false_iff.mpr fun hx =>
      hanswered n hn hm (Bool.and_eq_true_iff.mp hx))
    ⟨hid, hcomp⟩
  have hevents : s.events ||| 0x40#8 ||| 0x08#8 = s.events ||| 0x48#8 := by
    rw [BitVec.or_assoc]
    rfl
  refine ⟨buf, z, hbits, ?_⟩
  rw [hexec, State.onePass, hpass, State.ended, ← hevents]
  rfl

end Sys2Proof.Machine
end

section
/-!
PROOFS. The ROM search on the wired-AND bus (spec/43_search.md R164, R166): a pass finds the slave
that its rule of choice leads to, which is the greatest in line order after LD = 0 and the next
smaller one after that. `Follows` is that rule in terms of the slaves alone, with no bus and no
samples.
-/

namespace Sys2Proof.Machine

/-! ### Line order (R166) -/

/-- Two different identifiers have a first position at which they differ. -/
theorem exists_first_difference {x y : Ident} (h : x ≠ y) :
    ∃ n, 1 ≤ n ∧ n ≤ 64 ∧ (∀ m, 1 ≤ m → m < n → romBit x m = romBit y m) ∧
      romBit x n ≠ romBit y n := by
  have hex : ∃ n, 1 ≤ n ∧ n ≤ 64 ∧ romBit x n ≠ romBit y n := by
    by_contra hno
    push Not at hno
    exact h (ident_ext hno)
  obtain ⟨h1, h64, hne⟩ := Nat.find_spec hex
  refine ⟨Nat.find hex, h1, h64, fun m hm hlt => ?_, hne⟩
  have hmin := Nat.find_min hex hlt
  push Not at hmin
  exact hmin hm (by omega)

theorem LineGreater.irrefl (x : Ident) : ¬ LineGreater x x := by
  rintro ⟨n, -, -, -, h1, h0⟩
  exact Bool.false_ne_true (h0.symm.trans h1)

theorem LineGreater.trans {x y z : Ident} (hxy : LineGreater x y) (hyz : LineGreater y z) :
    LineGreater x z := by
  obtain ⟨n, hn, hn64, hagree, hx, hy⟩ := hxy
  obtain ⟨m, hm, hm64, hagree', hy', hz⟩ := hyz
  rcases Nat.lt_trichotomy n m with h | rfl | h
  · exact ⟨n, hn, hn64, fun i hi hin => (hagree i hi hin).trans (hagree' i hi (hin.trans h)), hx,
      (hagree' n hn h).symm.trans hy⟩
  · exact absurd (hy.symm.trans hy') Bool.false_ne_true
  · exact ⟨m, hm, hm64, fun i hi him => (hagree i hi (him.trans h)).trans (hagree' i hi him),
      (hagree m hm h).trans hy', hz⟩

theorem LineGreater.asymm {x y : Ident} (h : LineGreater x y) (h' : LineGreater y x) : False :=
  LineGreater.irrefl x (h.trans h')

/-! ### The slaves still in the search (R155) -/

/-- A slave stays in the search while its bits are the ones written. -/
theorem mem_inSearch {slaves : List Ident} {w x : Ident} {n : Nat} :
    x ∈ inSearch slaves w n ↔ x ∈ slaves ∧ ∀ m, 1 ≤ m → m < n → romBit x m = romBit w m := by
  simp only [inSearch, List.mem_filter, List.all_eq_true, List.mem_range, Bool.or_eq_true,
    beq_iff_eq]
  refine and_congr_right fun _ => ⟨fun h m h1 hm => ?_, fun h m hm => ?_⟩
  · exact (h m hm).resolve_left (by omega)
  · exact (Nat.eq_zero_or_pos m).imp_right fun h1 => h m h1 hm

/-- w is greater than a slave that leaves the search of w at a 1 of w. -/
theorem lineGreater_of_mem_inSearch {slaves : List Ident} {w y : Ident} {n : Nat} (h1 : 1 ≤ n)
    (h64 : n ≤ 64) (hy : y ∈ inSearch slaves w n) (hone : romBit w n = true)
    (hzero : romBit y n = false) : LineGreater w y :=
  ⟨n, h1, h64, fun m hm hlt => ((mem_inSearch.mp hy).2 m hm hlt).symm, hone, hzero⟩

/-- A slave smaller than w leaves its 0-branch untaken, at a position up to the last such one. -/
theorem LineGreater.exists_le {slaves : List Ident} {w y : Ident} {ld : Nat} (h : LineGreater w y)
    (hy : y ∈ slaves) (hmax : ∀ n, 1 ≤ n → n ≤ 64 → untaken slaves w n → n ≤ ld) :
    ∃ n, 1 ≤ n ∧ n ≤ 64 ∧ n ≤ ld ∧ (∀ m, 1 ≤ m → m < n → romBit w m = romBit y m) ∧
      romBit w n = true ∧ romBit y n = false := by
  obtain ⟨n, h1, h64, hbefore, hone, hzero⟩ := h
  have hmem : y ∈ inSearch slaves w n :=
    mem_inSearch.mpr ⟨hy, fun m hm hlt => (hbefore m hm hlt).symm⟩
  exact ⟨n, h1, h64, hmax n h1 h64 ⟨hone, y, hmem, hzero⟩, hbefore, hone, hzero⟩

/-- A bit is read low when a slave in the search holds it at 0. -/
theorem identityBit_eq_false_iff {e : Env} {k n : Nat} {slaves : List Ident} {w : Ident}
    (h : BusAnswers e k slaves w) (h1 : 1 ≤ n) (h64 : n ≤ 64) :
    identityBit e k n = false ↔ ∃ x ∈ inSearch slaves w n, romBit x n = false := by
  rw [(h.2 n h1 h64).1]
  simp

theorem complementBit_eq_false_iff {e : Env} {k n : Nat} {slaves : List Ident} {w : Ident}
    (h : BusAnswers e k slaves w) (h1 : 1 ≤ n) (h64 : n ≤ 64) :
    complementBit e k n = false ↔ ∃ x ∈ inSearch slaves w n, romBit x n = true := by
  rw [(h.2 n h1 h64).2]
  simp

/-- A position is answered while some slave is in the search. -/
theorem answered_of_mem_inSearch {e : Env} {k n : Nat} {slaves : List Ident} {w x : Ident}
    (h : BusAnswers e k slaves w) (h1 : 1 ≤ n) (h64 : n ≤ 64) (hx : x ∈ inSearch slaves w n) :
    ¬ (identityBit e k n = true ∧ complementBit e k n = true) := by
  rintro ⟨hi, hc⟩
  cases hb : romBit x n with
  | false =>
    have hzero := (identityBit_eq_false_iff h h1 h64).mpr ⟨x, hx, hb⟩
    exact Bool.false_ne_true (hzero.symm.trans hi)
  | true =>
    have hone := (complementBit_eq_false_iff h h1 h64).mpr ⟨x, hx, hb⟩
    exact Bool.false_ne_true (hone.symm.trans hc)

/-- Two slaves in the search with different bits make a branch conflict: {0,0} is read (R153). -/
theorem conflict_of_mem_inSearch {e : Env} {k n : Nat} {slaves : List Ident} {w x y : Ident}
    (h : BusAnswers e k slaves w) (h1 : 1 ≤ n) (h64 : n ≤ 64) (hx : x ∈ inSearch slaves w n)
    (hy : y ∈ inSearch slaves w n) (hdiff : romBit y n ≠ romBit x n) :
    identityBit e k n = false ∧ complementBit e k n = false := by
  rw [identityBit_eq_false_iff h h1 h64, complementBit_eq_false_iff h h1 h64]
  cases hxn : romBit x n with
  | true => exact ⟨⟨y, hy, Bool.eq_false_iff.mpr (hxn ▸ hdiff)⟩, ⟨x, hx, hxn⟩⟩
  | false => exact ⟨⟨x, hx, hxn⟩, ⟨y, hy, Bool.eq_true_of_not_eq_false (hxn ▸ hdiff)⟩⟩

/-- Bits that are all one bit have it as their AND. -/
theorem all_eq_of_forall_eq {slaves : List Ident} {f : Ident → Bool} {x : Ident} (hx : x ∈ slaves)
    (h : ∀ y ∈ slaves, f y = f x) : slaves.all f = f x := by
  rw [Bool.eq_iff_iff, List.all_eq_true]
  exact ⟨fun hall => hall x hx, fun hxt y hy => (h y hy).trans hxt⟩

/-- A pass reads no {1,1}, or there is a first position at which it does. -/
theorem answered_or_first_conflict (e : Env) (k : Nat) :
    (∀ n, 1 ≤ n → n ≤ 64 → ¬ (identityBit e k n = true ∧ complementBit e k n = true)) ∨
      ∃ m, 1 ≤ m ∧ m ≤ 64 ∧
        (∀ n, 1 ≤ n → n < m → ¬ (identityBit e k n = true ∧ complementBit e k n = true)) ∧
        identityBit e k m = true ∧ complementBit e k m = true := by
  by_cases hall : ∀ n, 1 ≤ n → n ≤ 64 → ¬ (identityBit e k n = true ∧ complementBit e k n = true)
  · exact .inl hall
  · push Not at hall
    obtain ⟨h1, h64, hconflict⟩ := Nat.find_spec hall
    refine .inr ⟨Nat.find hall, h1, h64, fun n hn hlt hc => ?_, hconflict⟩
    exact Nat.find_min hall hlt ⟨hn, by omega, hc⟩

/-! ### The slave a pass leads to -/

/-- x is the slave a pass finds after one that left `prev` and `ld`: wherever the slaves that agree
with x so far are not of one bit, x takes the branch of `Choose` (R154). -/
def Follows (slaves : List Ident) (prev : Ident) (ld : Nat) (x : Ident) : Prop :=
  x ∈ slaves ∧ ∀ n, 1 ≤ n → n ≤ 64 → ∀ y ∈ inSearch slaves x n, romBit y n ≠ romBit x n →
    romBit x n = if n < ld then romBit prev n else decide (ld < n)

theorem self_mem_inSearch {slaves : List Ident} {x : Ident} (hx : x ∈ slaves) (n : Nat) :
    x ∈ inSearch slaves x n := mem_inSearch.mpr ⟨hx, fun _ _ _ => rfl⟩

/-- A pass takes, at every position, a branch on which some slave in the search stays. -/
theorem exists_mem_branchOf {e : Env} {k n ld : Nat} {slaves : List Ident} {prev w : Ident}
    (h : BusAnswers e k slaves w) (h1 : 1 ≤ n) (h64 : n ≤ 64)
    (hsome : ∃ x, x ∈ inSearch slaves w n) :
    ∃ y ∈ inSearch slaves w n, romBit y n = branchOf e k prev ld n := by
  obtain ⟨x, hx⟩ := hsome
  have hanswered := answered_of_mem_inSearch h h1 h64 hx
  have hzero := identityBit_eq_false_iff h h1 h64
  have hone := complementBit_eq_false_iff h h1 h64
  unfold branchOf
  cases hi : identityBit e k n with
  | true =>
    have hc : complementBit e k n = false := Bool.eq_false_iff.mpr fun hc => hanswered ⟨hi, hc⟩
    rw [hc, if_neg (by decide)]
    exact hone.mp hc
  | false =>
    cases hc : complementBit e k n with
    | true =>
      rw [if_neg (by decide)]
      exact hzero.mp hi
    | false =>
      cases (if n < ld then romBit prev n else decide (ld < n)) with
      | true => exact hone.mp hc
      | false => exact hzero.mp hi

/-- Through its first m positions a pass keeps some slave in the search. -/
theorem exists_mem_inSearch {e : Env} {k m ld : Nat} {slaves : List Ident} {prev buf : Ident}
    (h : BusAnswers e k slaves buf) (hbits : PassBits e k prev ld m buf) (hm : m ≤ 64)
    (hne : slaves ≠ []) {n : Nat} (hn : n ≤ m) : ∃ x, x ∈ inSearch slaves buf (n + 1) := by
  induction n with
  | zero =>
    obtain ⟨x, hx⟩ := List.exists_mem_of_ne_nil slaves hne
    exact ⟨x, mem_inSearch.mpr ⟨hx, fun i hi hi' => by omega⟩⟩
  | succ n ih =>
    obtain ⟨y, hy, hbranch⟩ :=
      exists_mem_branchOf (prev := prev) (ld := ld) h (n := n + 1) (by omega) (by omega)
        (ih (by omega))
    have hbit := hbits (n + 1) (by omega) (by omega)
    rw [if_pos hn] at hbit
    obtain ⟨hslave, hagree⟩ := mem_inSearch.mp hy
    refine ⟨y, mem_inSearch.mpr ⟨hslave, fun i hi hi' => ?_⟩⟩
    rcases Nat.lt_succ_iff_lt_or_eq.mp hi' with hlt | rfl
    · exact hagree i hi hlt
    · rw [hbranch, hbit]

/-- A completed pass takes the branch of `Choose` where both directions have a slave (R154). -/
theorem follows_of_passBits {e : Env} {k ld : Nat} {slaves : List Ident} {prev buf : Ident}
    (h : BusAnswers e k slaves buf) (hbits : PassBits e k prev ld 64 buf) (hne : slaves ≠ []) :
    Follows slaves prev ld buf := by
  obtain ⟨x, hx⟩ := exists_mem_inSearch h hbits (Nat.le_refl 64) hne (Nat.le_refl 64)
  obtain ⟨hslave, hagree⟩ := mem_inSearch.mp hx
  obtain rfl : x = buf := ident_ext fun n h1 h64 => hagree n h1 (by omega)
  refine ⟨hslave, fun n h1 h64 y hy hdiff => ?_⟩
  have hbit := hbits n h1 h64
  rw [if_pos h64, branchOf] at hbit
  obtain ⟨hi, hc⟩ := conflict_of_mem_inSearch h h1 h64 (self_mem_inSearch hslave n) hy hdiff
  rwa [if_pos (hi.trans hc.symm)] at hbit

section PassOnBus

variable {e : Env} {k ld : Nat} {slaves : List Ident} {prev x : Ident}
  (hx : Follows slaves prev ld x) (hbus : BusAnswers e k slaves x)
include hx hbus

/-- While x is addressed, the pass takes x's bits. -/
theorem Follows.branchOf_eq {n : Nat} (h1 : 1 ≤ n) (h64 : n ≤ 64) :
    branchOf e k prev ld n = romBit x n := by
  obtain ⟨hslave, hchoice⟩ := hx
  have hself := self_mem_inSearch hslave n
  unfold branchOf
  by_cases hconflict : ∃ y ∈ inSearch slaves x n, romBit y n ≠ romBit x n
  · obtain ⟨y, hy, hdiff⟩ := hconflict
    obtain ⟨hi, hc⟩ := conflict_of_mem_inSearch hbus h1 h64 hself hy hdiff
    rw [if_pos (hi.trans hc.symm), hchoice n h1 h64 y hy hdiff]
  · push Not at hconflict
    obtain ⟨hi, hc⟩ : identityBit e k n = romBit x n ∧ complementBit e k n = !romBit x n := by
      rw [(hbus.2 n h1 h64).1, (hbus.2 n h1 h64).2]
      exact ⟨all_eq_of_forall_eq hself hconflict,
        all_eq_of_forall_eq hself fun y hy => congrArg (!·) (hconflict y hy)⟩
    rw [if_neg (by rw [hi, hc]; exact (Bool.not_ne_self _).symm), hi]

/-- The pass leaves a 0-branch exactly where x takes 1 and a slave that agrees with it so far has
0. -/
theorem Follows.leavesZero_iff {n : Nat} (h1 : 1 ≤ n) (h64 : n ≤ 64) :
    leavesZero e k prev ld n ↔ untaken slaves x n := by
  have hself := self_mem_inSearch hx.1 n
  rw [leavesZero, untaken, hx.branchOf_eq hbus h1 h64, identityBit_eq_false_iff hbus h1 h64,
    complementBit_eq_false_iff hbus h1 h64]
  exact ⟨fun ⟨hzero, _, hbit⟩ => ⟨hbit, hzero⟩,
    fun ⟨hbit, hzero⟩ => ⟨hzero, ⟨x, hself, hbit⟩, hbit⟩⟩

theorem Follows.answered {n : Nat} (h1 : 1 ≤ n) (h64 : n ≤ 64) :
    ¬ (identityBit e k n = true ∧ complementBit e k n = true) :=
  answered_of_mem_inSearch hbus h1 h64 (self_mem_inSearch hx.1 n)

theorem Follows.eq_of_passBits {buf : Ident} (hbits : PassBits e k prev ld 64 buf) : buf = x :=
  ident_ext fun n h1 h64 => by
    rw [hbits n h1 h64, if_pos h64, hx.branchOf_eq hbus h1 h64]

/-- What a pass that finds x leaves is the search state of an enumeration (R150, R156). -/
theorem Follows.enumerating {z : Nat} {t : State} (hz : LastZero e k prev ld 64 z)
    (hbuf : t.rombuf = x) (hld : t.ld = BitVec.ofNat 8 z)
    (hlast : t.status.lastdev = decide (z = 0)) : Enumerating slaves t := by
  obtain ⟨hmax, hend⟩ := hz
  have hz64 : z ≤ 64 := by rcases hend with rfl | ⟨-, h, -⟩ <;> omega
  have hld' : t.ld.toNat = z := by rw [hld, BitVec.toNat_ofNat, Nat.mod_eq_of_lt (by omega)]
  rw [Enumerating, hbuf, hld']
  refine ⟨hx.1, fun n h1 h64 hn => hmax n h1 h64 ((hx.leavesZero_iff hbus h1 h64).mpr hn),
    hend.imp_right fun ⟨h1, h64, hleaves⟩ => ⟨h64, (hx.leavesZero_iff hbus h1 h64).mp hleaves⟩, ?_⟩
  rw [hlast, beq_eq_decide, decide_eq_decide, ← BitVec.toNat_inj, hld']
  rfl

end PassOnBus

/-- With LASTDEV = 0 a 0-branch is left for the next pass, at LD (R150). -/
theorem Enumerating.next {slaves : List Ident} {s : State} (h : Enumerating slaves s)
    (hlast : s.status.lastdev = false) :
    1 ≤ s.ld.toNat ∧ s.ld.toNat ≤ 64 ∧ untaken slaves s.rombuf s.ld.toNat := by
  obtain ⟨-, -, hend, hld⟩ := h
  have hne : s.ld ≠ 0x00#8 := by simpa [hlast] using hld
  have hpos : s.ld.toNat ≠ 0 := fun h0 => hne (BitVec.eq_of_toNat_eq h0)
  exact ⟨Nat.one_le_iff_ne_zero.mpr hpos, hend.resolve_left hpos⟩

/-! ### Line order of the slaves found (R166) -/

/-- The slave found is greater than every other one that agrees with it up to LD. -/
theorem Follows.lineGreater {slaves : List Ident} {prev x y : Ident} {ld : Nat}
    (hx : Follows slaves prev ld x) (hy : y ∈ slaves) (hne : x ≠ y)
    (hagree : ∀ n, 1 ≤ n → n ≤ ld → romBit x n = romBit y n) : LineGreater x y := by
  obtain ⟨n, h1, h64, hbefore, hdiff⟩ := exists_first_difference hne
  have hmem : y ∈ inSearch slaves x n :=
    mem_inSearch.mpr ⟨hy, fun m hm hmn => (hbefore m hm hmn).symm⟩
  have habove : ld < n := by
    by_contra hle
    exact hdiff (hagree n h1 (by omega))
  have hbit : romBit x n = true := by
    rw [hx.2 n h1 h64 y hmem hdiff.symm, if_neg (by omega), decide_eq_true habove]
  exact ⟨n, h1, h64, hbefore, hbit, Bool.eq_false_iff.mpr (hbit ▸ hdiff.symm)⟩

/-- After a pass that found w, the next one replays w below LD (R154). -/
theorem Follows.agrees_below {slaves : List Ident} {w x : Ident} {ld : Nat}
    (hx : Follows slaves w ld x) (hw : w ∈ slaves) (h64 : ld ≤ 64) {n : Nat} (h1 : 1 ≤ n)
    (hn : n < ld) : romBit x n = romBit w n := by
  induction n using Nat.strong_induction_on with
  | _ n ih =>
    by_contra hdiff
    have hmem : w ∈ inSearch slaves x n :=
      mem_inSearch.mpr ⟨hw, fun m hm hmn => (ih m hmn hm (hmn.trans hn)).symm⟩
    have hbit := hx.2 n h1 (by omega) w hmem (Ne.symm hdiff)
    rw [if_pos hn] at hbit
    exact hdiff hbit

section NextPass

variable {slaves : List Ident} {w x : Ident} {ld : Nat} (hx : Follows slaves w ld x)
  (hw : w ∈ slaves) (h1 : 1 ≤ ld) (h64 : ld ≤ 64) (huntaken : untaken slaves w ld)
include hx hw h1 h64 huntaken

/-- It takes the untaken 0-branch at LD (R154, C1). -/
theorem Follows.zero_at : romBit x ld = false := by
  by_contra hone
  obtain ⟨-, y, hy, hzero⟩ := huntaken
  obtain ⟨hslave, hagree⟩ := mem_inSearch.mp hy
  have hmem : y ∈ inSearch slaves x ld := mem_inSearch.mpr ⟨hslave, fun m hm hlt =>
    (hagree m hm hlt).trans (hx.agrees_below hw h64 hm hlt).symm⟩
  have hbit := hx.2 ld h1 h64 y hmem (by rw [hzero]; exact Ne.symm hone)
  rw [if_neg (Nat.lt_irrefl ld), decide_eq_false (Nat.lt_irrefl ld)] at hbit
  exact hone hbit

theorem Follows.lineGreater_prev : LineGreater w x :=
  ⟨ld, h1, h64, fun _ hm hlt => (hx.agrees_below hw h64 hm hlt).symm, huntaken.1,
    hx.zero_at hw h1 h64 huntaken⟩

/-- No slave lies between w and the one found next, since LD was the last 0-branch left. -/
theorem Follows.eq_or_lineGreater
    (hmax : ∀ n, 1 ≤ n → n ≤ 64 → untaken slaves w n → n ≤ ld) {y : Ident} (hy : y ∈ slaves)
    (hwy : LineGreater w y) : y = x ∨ LineGreater x y := by
  obtain ⟨n, hn1, hn64, hle, hbefore, hwn, hyn⟩ := hwy.exists_le hy hmax
  have hbelow : ∀ m, 1 ≤ m → m < n → romBit x m = romBit y m := fun m hm hmn =>
    (hx.agrees_below hw h64 hm (hmn.trans_le hle)).trans (hbefore m hm hmn)
  rcases Nat.lt_or_eq_of_le hle with hlt | rfl
  · exact .inr ⟨n, hn1, hn64, hbelow,
      (hx.agrees_below hw h64 hn1 hlt).trans hwn, hyn⟩
  · by_cases hyx : y = x
    · exact .inl hyx
    · refine .inr (hx.lineGreater hy (Ne.symm hyx) fun m hm hmn => ?_)
      rcases Nat.lt_or_eq_of_le hmn with hlt | rfl
      · exact hbelow m hm hlt
      · rw [hx.zero_at hw h1 h64 huntaken, hyn]

end NextPass

/-! ### SRCHF and SRCHN on the bus -/

/-- On a bus with slaves a pass of SRCHF or SRCHN completes, and finds the slave its choices lead
to. -/
theorem exec_search_onBus {i : Instr} {s : State} {ld : Nat} {slaves : List Ident}
    (h : (i = .srchf ∧ ld = 0) ∨ (i = .srchn ∧ s.status.lastdev = false ∧ ld = s.ld.toNat))
    (hb : s.status.busy = false) (hne : slaves ≠ []) :
    ∃ t, exec i s = .next t ∧ (BusAnswers s.env 0 slaves t.rombuf →
      Follows slaves s.rombuf ld t.rombuf ∧ t.status.sok = true ∧ Enumerating slaves t) := by
  obtain ⟨t, ht⟩ := exec_completes i s
  refine ⟨t, ht, fun hbus => ?_⟩
  have hpres : s.env.sampleAt 0 = false := hbus.1.trans (by simpa using hne)
  rcases answered_or_first_conflict s.env 0 with hall | ⟨m, h1, h64, hbefore, hid, hcomp⟩
  · obtain ⟨buf, z, hbits, hz, hexec⟩ := searchPassTakesTheBranches i s ld h hb hpres hall
    cases hexec.symm.trans ht
    have hfollows := follows_of_passBits hbus hbits hne
    exact ⟨hfollows, rfl, hfollows.enumerating hbus hz rfl rfl rfl⟩
  · obtain ⟨buf, z, hbits, hexec⟩ :=
      searchPassAbortsOnConflict i s ld m h hb hpres h1 h64 hbefore hid hcomp
    cases hexec.symm.trans ht
    obtain ⟨x, hx⟩ := exists_mem_inSearch hbus hbits (by omega) hne (Nat.le_refl (m - 1))
    rw [Nat.sub_add_cancel h1] at hx
    exact absurd ⟨hid, hcomp⟩ (answered_of_mem_inSearch hbus h1 h64 hx)

/-- Settles O39: the slave found is the one the choices of R154 lead to, and those choices keep to
line order. -/
theorem searchFindsSlavesInLineOrder : Obligations.SearchFindsSlavesInLineOrder := by
  constructor
  · intro slaves s hne hb
    obtain ⟨t, ht, hfound⟩ := exec_search_onBus (i := .srchf) (.inl ⟨rfl, rfl⟩) hb hne
    refine ⟨t, ht, fun hbus => ?_⟩
    obtain ⟨hfollows, hsok, henum⟩ := hfound hbus
    exact ⟨fun x hx hdiff => hfollows.lineGreater hx hdiff.symm fun n h1 h0 => by omega, hsok,
      henum⟩
  · intro slaves s henum hlast hb
    obtain ⟨h1, h64, huntaken⟩ := henum.next hlast
    obtain ⟨hw, hmax, -, -⟩ := henum
    have hne : slaves ≠ [] := List.ne_nil_of_mem hw
    obtain ⟨t, ht, hfound⟩ := exec_search_onBus (i := .srchn) (.inr ⟨rfl, hlast, rfl⟩) hb hne
    refine ⟨t, ht, fun hbus => ?_⟩
    obtain ⟨hfollows, hsok, henum⟩ := hfound hbus
    exact ⟨hfollows.lineGreater_prev hw h1 h64 huntaken,
      fun x hx => hfollows.eq_or_lineGreater hw h1 h64 huntaken hmax hx, hsok, henum⟩

end Sys2Proof.Machine
end

section
/-!
PROOFS. Enumerations (spec/43_search.md R160 to R165): one rule for `RunEnum`'s loop, the commands
ENUM and ENUMC that run no pass or one without presence, and what they leave on every bus.
-/

namespace Sys2Proof.Machine

/-! ### `RunEnum`'s loop (R163) -/

/-- The next pass of an enumeration, counted in h.PASSES. -/
def State.nextPass (s : State) : State × PassResult := { s with passes := s.passes + 1 }.searchPass

theorem enumLoop_of_stops {s : State} (h : s.enumStops = true) (k : Nat) :
    enumLoop (k + 1) s = s := if_pos h

theorem enumLoop_of_pass {s : State} (h : ¬ s.enumStops = true) (k : Nat) :
    enumLoop (k + 1) s =
      if s.nextPass.2 = .ok then enumLoop k s.nextPass.1.insertRom else s.nextPass.1 := if_neg h

/-- What holds at the head of the loop, and what an enumeration leaves: by induction on the bound of
the recursion, which the pass limit never lets run out. -/
theorem enumLoop_rule {P Q : State → Prop} (stopped : ∀ u, P u → u.enumStops = true → Q u)
    (passed : ∀ u, P u → ¬ u.enumStops = true →
      if u.nextPass.2 = .ok then P u.nextPass.1.insertRom else Q u.nextPass.1)
    (k : Nat) (s : State) (h : P s) (hp : s.passes ≤ s.params.passLimit)
    (hk : s.params.passLimit < s.passes + k) : Q (enumLoop k s) := by
  induction k generalizing s with
  | zero => omega
  | succ k ih =>
    by_cases hstop : s.enumStops = true
    · rw [enumLoop_of_stops hstop]
      exact stopped s h hstop
    · have hlimit := (State.not_enumStops hstop).2
      have hpass := passed s h hstop
      rw [enumLoop_of_pass hstop]
      split at hpass
      · rename_i hok
        rw [if_pos hok]
        have hpasses : s.nextPass.1.insertRom.passes = s.passes + 1 := by simp [State.nextPass]
        have hparams : s.nextPass.1.insertRom.params = s.params := by simp [State.nextPass]
        exact ih _ hpass (by rw [hpasses, hparams]; omega) (by rw [hpasses, hparams]; omega)
      · rename_i hno
        rwa [if_neg hno]

/-! ### ENUM and ENUMC -/

/-- Where the loop of ENUM or ENUMC begins: the command accepted, CCOUNT and h.PASSES at 0, LD and
LASTDEV as given. -/
def State.enumStart (i : Instr) (ld : Byte) (lastdev : Bool) (s : State) : State :=
  { s.accept i .host with
    ld := ld, ccount := 0x00#8, passes := 0
    status := { s.status with busy := true, lastdev := lastdev } }

/-- ENUM starts a new enumeration (R161). -/
theorem exec_enum {s : State} (hb : s.status.busy = false) :
    exec .enum s =
      .next (enumLoop (s.params.passLimit + 1) (s.enumStart .enum 0x00#8 false)).endHost :=
  exec_of_idle hb (by decide) (by decide)

/-- ENUMC goes on with the one that LD and LASTDEV hold (R162). -/
theorem exec_enumc {s : State} (hb : s.status.busy = false) :
    exec .enumc s =
      .next (enumLoop (s.params.passLimit + 1)
        (s.enumStart .enumc s.ld s.status.lastdev)).endHost :=
  exec_of_idle hb (by decide) (by decide)

theorem passLimit_pos_of_wf {p : Config.Params} (h : p.wf = true) :
    1 ≤ p.cacheDepth ∧ 1 ≤ p.passLimit := by
  simp only [Config.Params.wf, Bool.and_eq_true, decide_eq_true_eq] at h
  omega

/-- With no pass made and no entry made, only LASTDEV stops the loop (R163). -/
theorem State.lastdev_of_enumStops {s : State} (hp : s.params.wf = true)
    (hc : s.ccount.toNat = 0) (h0 : s.passes = 0) (h : s.enumStops = true) :
    s.status.lastdev = true := by
  have hpos := passLimit_pos_of_wf hp
  simp only [State.enumStops, Bool.or_eq_true, beq_iff_eq, hc, h0] at h
  rcases h with (h | h) | h
  · exact h
  · omega
  · omega

/-- The first pass ends the enumeration when there is no presence (R158, R163). -/
theorem enumLoop_of_noPres {s : State} (h : ¬ s.enumStops = true) (hpres : s.env.sampleAt 0 = true)
    (k : Nat) :
    enumLoop (k + 1) s =
      { s.afterLine 1 (resetTrace s.params true) with
        passes := s.passes + 1
        ld := 0x00#8
        status :=
          { s.status with pd := false, arm := false, lastdev := false, sok := false
                          crcok := false } } := by
  have hpass := State.searchPass_noPres { s with passes := s.passes + 1 } hpres
  rw [enumLoop_of_pass h, State.nextPass, hpass]
  rfl

theorem State.enumStart_goes {s : State} (hp : s.params.wf = true) (i : Instr) (ld : Byte) :
    ¬ (s.enumStart i ld false).enumStops = true := fun h =>
  Bool.false_ne_true (State.lastdev_of_enumStops (s := s.enumStart i ld false) hp rfl rfl h)

/-- Settles O40: one pass, which ends at its presence sample. -/
theorem enumerationOfAnEmptyBus : Obligations.EnumerationOfAnEmptyBus := by
  intro i s hi hb hp hpres
  rcases hi with rfl | ⟨rfl, hl⟩
  · rw [exec_enum hb, enumLoop_of_noPres (State.enumStart_goes hp _ _) hpres]
    rfl
  · rw [exec_enumc hb, hl, enumLoop_of_noPres (State.enumStart_goes hp _ _) hpres]
    rfl

/-- Settles O41: the first check at the head of the loop. -/
theorem enumcAfterTheLastDeviceRunsNoPass : Obligations.EnumcAfterTheLastDeviceRunsNoPass := by
  intro s hb hl
  have hstop : (s.enumStart .enumc s.ld true).enumStops = true := rfl
  rw [exec_enumc hb, hl, enumLoop_of_stops hstop, State.enumStart, ← hl]
  rfl

/-! ### What any pass leaves (R152 to R158) -/

/-- From s to t the ROM search has written only what it may, and the line is released. -/
def SearchFrame (s t : State) : Prop :=
  t = { s with
      status := { t.status with
        busy := s.status.busy, session := s.status.session, idv := s.status.idv }
      events := t.events, ld := t.ld, ccount := t.ccount, rombuf := t.rombuf
      lastzero := t.lastzero, cache := t.cache, passes := t.passes, drv := .released
      env := { s.env with nSamples := t.env.nSamples, trace := t.env.trace } } ∧
    ∃ ps, t.env.trace = s.env.trace ++ ps

theorem SearchFrame.refl {s : State} (h : s.drv = .released) : SearchFrame s s :=
  ⟨by rw [← h], [], (List.append_nil _).symm⟩

theorem SearchFrame.trans {s t u : State} (h : SearchFrame s t) (h' : SearchFrame t u) :
    SearchFrame s u := by
  obtain ⟨ht, ps, hps⟩ := h
  obtain ⟨hu, qs, hqs⟩ := h'
  refine ⟨?_, ps ++ qs, by rw [hqs, hps, List.append_assoc]⟩
  rw [ht] at hu
  exact hu

/-- What a pass that returns r leaves, from s to t. -/
structure PassLeaves (s t : State) (r : PassResult) : Prop where
  frame : SearchFrame s t
  counters : t.ccount = s.ccount ∧ t.cache = s.cache ∧ t.passes = s.passes
  disarmed : t.status.arm = false
  completed : r = .ok → t.status.sok = true ∧ t.events = s.events
  /-- an aborted pass raises ERR_SRCH when there was a presence (R157, R158) -/
  aborted : r ≠ .ok → t.status.sok = false ∧
    t.events = s.events ||| (if t.status.pd then 0x40#8 else 0x00#8) ∧
    t.ld = 0x00#8 ∧ t.status.lastdev = false ∧ t.status.crcok = false

/-- A pass finds no presence, completes, or is aborted at its first {1,1}. -/
theorem State.searchPass_leaves (s : State) : PassLeaves s s.searchPass.1 s.searchPass.2 := by
  cases hpres : s.env.sampleAt 0 with
  | true =>
    rw [s.searchPass_noPres hpres]
    exact ⟨⟨rfl, _, rfl⟩, ⟨rfl, rfl, rfl⟩, rfl, nofun,
      fun _ => ⟨rfl, BitVec.or_zero.symm, rfl, rfl, rfl⟩⟩
  | false =>
    rcases answered_or_first_conflict s.env 0 with hall | ⟨m, h1, h64, hbefore, hconflict⟩
    · obtain ⟨buf, z, -, -, hpass⟩ := s.searchPass_ok hpres fun n h1 h64 =>
        Bool.eq_false_iff.mpr fun hx => hall n h1 h64 (Bool.and_eq_true_iff.mp hx)
      rw [hpass]
      exact ⟨⟨rfl, _, rfl⟩, ⟨rfl, rfl, rfl⟩, rfl, fun _ => ⟨rfl, rfl⟩, fun h => absurd rfl h⟩
    · obtain ⟨buf, z, -, -, hpass⟩ := s.searchPass_conflict m hpres h1 h64
        (fun n hn hm => Bool.eq_false_iff.mpr fun hx =>
          hbefore n hn hm (Bool.and_eq_true_iff.mp hx)) hconflict
      rw [hpass]
      exact ⟨⟨rfl, _, rfl⟩, ⟨rfl, rfl, rfl⟩, rfl, nofun, fun _ => ⟨rfl, rfl, rfl, rfl, rfl⟩⟩

end Sys2Proof.Machine
end

section
/-!
PROOFS. ENUM and ENUMC on every bus (spec/43_search.md R160 to R165): what holds at the head of
`RunEnum`'s loop, and what an enumeration leaves however it ends.
-/

namespace Sys2Proof.Machine

/-! ### `Insert()` (R160) -/

theorem State.insertRom_of_crcok {s : State} (h : s.status.crcok = true) :
    s.insertRom =
      { s with cache := s.cache.set s.ccount.toNat s.rombuf, ccount := s.ccount + 1 } := if_pos h

theorem State.insertRom_of_not_crcok {s : State} (h : ¬ s.status.crcok = true) :
    s.insertRom = { s with events := s.events ||| 0x20#8 } := if_neg h

/-- `Insert()` writes the cache, CCOUNT and EVENTS, and nothing else. -/
theorem State.insertRom_frame (s : State) :
    s.insertRom = { s with
      cache := s.insertRom.cache, ccount := s.insertRom.ccount, events := s.insertRom.events } := by
  unfold State.insertRom
  split <;> rfl

theorem SearchFrame.insertRom {s : State} (h : s.drv = .released) :
    SearchFrame s s.insertRom := by
  refine ⟨?_, [], ?_⟩
  · rw [s.insertRom_frame, ← h]
  · rw [s.insertRom_frame, List.append_nil]

/-- With room in the cache, CCOUNT does not overflow. -/
theorem Running.ccount_succ {s : State} (h : Running s)
    (hr : s.ccount.toNat < s.params.cacheDepth) : (s.ccount + 1).toNat = s.ccount.toNat + 1 := by
  have hdepth := cacheDepth_le_of_wf h.params
  exact BitVec.toNat_add_of_lt (show s.ccount.toNat + 1 < 256 by omega)

/-- What k completed passes of an enumeration that began in s have made of the cache and of EVENTS:
no entry from CCOUNT on is touched, and ERR_CRC is raised when a pass inserted nothing. -/
structure Entries (s : State) (k : Nat) (u : State) : Prop where
  others : ∀ e, u.ccount.toNat ≤ e → u.cache[e]? = s.cache[e]?
  count : u.ccount.toNat ≤ k
  events : u.events = s.events ||| (if u.ccount.toNat < k then 0x20#8 else 0x00#8)

theorem Entries.insertRom {s u : State} {k : Nat} (h : Entries s k u)
    (hsucc : (u.ccount + 1).toNat = u.ccount.toNat + 1) : Entries s (k + 1) u.insertRom := by
  obtain ⟨others, count, events⟩ := h
  by_cases hc : u.status.crcok = true
  · rw [State.insertRom_of_crcok hc]
    constructor
    case others =>
      intro e he
      rw [hsucc] at he
      rw [List.getElem?_set_ne (by omega), others e (by omega)]
    case count => rw [hsucc]; omega
    case events => simp only [hsucc, Nat.add_lt_add_iff_right, events]
  · rw [State.insertRom_of_not_crcok hc]
    refine ⟨others, count.trans (Nat.le_succ k), ?_⟩
    rw [if_pos (Nat.lt_succ_of_le count), events]
    split
    · rw [BitVec.or_assoc, BitVec.or_self]
    · rw [BitVec.or_zero]

/-! ### The head of the loop -/

/-- At the head of the loop that began in s every pass so far was completed. -/
structure EnumProgress (s u : State) : Prop where
  running : Running u
  frame : SearchFrame s u
  entries : Entries s u.passes u
  first : u.passes = 0 → u.status.lastdev = s.status.lastdev
  later : 1 ≤ u.passes → s.status.lastdev = false ∧ u.status.arm = false ∧ u.status.sok = true

/-- The loop begins with no pass and no entry made. -/
theorem EnumProgress.start {s : State} (h : Running s) (hc : s.ccount.toNat = 0)
    (h0 : s.passes = 0) : EnumProgress s s where
  running := h
  frame := .refl h.released
  entries := ⟨fun _ _ => rfl, by omega, by rw [if_neg (by omega), BitVec.or_zero]⟩
  first _ := rfl
  later h1 := by omega

/-- A pass runs only when the enumeration began with LASTDEV = 0. -/
theorem EnumProgress.lastdev {s u : State} (h : EnumProgress s u) (hgo : ¬ u.enumStops = true) :
    s.status.lastdev = false := by
  rcases Nat.eq_zero_or_pos u.passes with h0 | hpos
  · rw [← h.first h0]
    exact Bool.eq_false_iff.mpr fun hl => hgo (by simp [State.enumStops, hl])
  · exact (h.later hpos).1

/-- A pass of an enumeration leaves what any pass does, with one more in h.PASSES. -/
theorem State.nextPass_leaves (u : State) :
    SearchFrame u u.nextPass.1 ∧ u.nextPass.1.passes = u.passes + 1 ∧
      PassLeaves { u with passes := u.passes + 1 } u.nextPass.1 u.nextPass.2 := by
  have h := State.searchPass_leaves { u with passes := u.passes + 1 }
  exact ⟨h.frame, h.counters.2.2, h⟩

/-- A completed pass and its insertion lead to the head of the loop again. -/
theorem EnumProgress.next {s u : State} (h : EnumProgress s u) (hgo : ¬ u.enumStops = true)
    (hok : u.nextPass.2 = .ok) : EnumProgress s u.nextPass.1.insertRom := by
  obtain ⟨frame, passes, -, ⟨hcount, hcache, -⟩, hdisarmed, hcompleted, -⟩ := u.nextPass_leaves
  obtain ⟨hsok, hevents⟩ := hcompleted hok
  have hrun : Running u.nextPass.1 := (h.running.countPass hgo).searchPass
  have hroom : u.nextPass.1.ccount.toNat < u.nextPass.1.params.cacheDepth := by
    have hparams : u.nextPass.1.params = u.params := State.searchPass_params _
    rw [hcount, hparams]
    exact h.running.room hgo
  have hentries : Entries s u.passes u.nextPass.1 :=
    ⟨by rw [hcount, hcache]; exact h.entries.others, by rw [hcount]; exact h.entries.count,
      by rw [hcount, hevents]; exact h.entries.events⟩
  constructor
  case running => exact hrun.insertRom (State.searchPass_checked hok) hroom
  case frame => exact (h.frame.trans frame).trans (.insertRom hrun.released)
  case entries =>
    rw [State.insertRom_passes, passes]
    exact hentries.insertRom (hrun.ccount_succ hroom)
  case first =>
    rw [State.insertRom_passes, passes]
    exact nofun
  case later =>
    rw [State.insertRom_frame]
    exact fun _ => ⟨h.lastdev hgo, hdisarmed, hsok⟩

/-! ### What an enumeration leaves -/

/-- What an enumeration that began in s leaves, however it ends. -/
structure EnumOutcome (s t : State) : Prop where
  running : Running t
  frame : SearchFrame s t
  others : ∀ e, t.ccount.toNat ≤ e → t.cache[e]? = s.cache[e]?
  count : t.ccount.toNat ≤ t.completedPasses
  noPass : t.passes = 0 ↔ s.status.lastdev = true
  stopped : t.status.lastdev = true ∨ t.ccount.toNat = s.params.cacheDepth ∨
    t.passes = s.params.passLimit ∨ t.status.sok = false
  events : t.events = s.events |||
    (if t.ccount.toNat < t.completedPasses then 0x20#8 else 0x00#8) |||
    (if 1 ≤ t.passes ∧ t.status.sok = false ∧ t.status.pd = true then 0x40#8 else 0x00#8)
  later : 1 ≤ t.passes → t.status.arm = false ∧
    (t.status.sok = false → t.ld = 0x00#8 ∧ t.status.lastdev = false ∧ t.status.crcok = false)

theorem SearchFrame.params {s t : State} (h : SearchFrame s t) : t.params = s.params := by
  rw [h.1]

/-- The passes made at the head of the loop were all completed. -/
theorem EnumProgress.completedPasses {s u : State} (h : EnumProgress s u) :
    u.completedPasses = u.passes := by
  unfold State.completedPasses
  split
  · rfl
  · rename_i hsok
    have hzero : u.passes = 0 := by
      by_contra hne
      exact hsok (h.later (Nat.one_le_iff_ne_zero.mpr hne)).2.2
    rw [hzero]

/-- The loop ends at its head. -/
theorem EnumProgress.stop {s u : State} (h : EnumProgress s u) (hstop : u.enumStops = true) :
    EnumOutcome s u := by
  obtain ⟨others, count, events⟩ := h.entries
  have haborted : ¬ (1 ≤ u.passes ∧ u.status.sok = false ∧ u.status.pd = true) :=
    fun ⟨h1, hsok, _⟩ => Bool.false_ne_true (hsok.symm.trans (h.later h1).2.2)
  refine { h with
    others := others, count := ?count, noPass := ?noPass, stopped := ?stopped, events := ?events
    later := fun h1 => ?later }
  case count => rwa [h.completedPasses]
  case noPass =>
    constructor
    · intro h0
      rw [← h.first h0]
      exact State.lastdev_of_enumStops h.running.params (by omega) h0 hstop
    · intro hl
      by_contra hne
      exact Bool.false_ne_true ((h.later (Nat.one_le_iff_ne_zero.mpr hne)).1.symm.trans hl)
  case stopped =>
    rw [← h.frame.params]
    simp only [State.enumStops, Bool.or_eq_true, beq_iff_eq] at hstop
    rcases hstop with (hl | hc) | hp
    · exact .inl hl
    · exact .inr (.inl hc)
    · exact .inr (.inr (.inl hp))
  case events => rw [h.completedPasses, if_neg haborted, BitVec.or_zero, events]
  case later =>
    obtain ⟨-, harm, hsok⟩ := h.later h1
    exact ⟨harm, fun hno => absurd (hno.symm.trans hsok) Bool.false_ne_true⟩

/-- The loop ends with an aborted pass. -/
theorem EnumProgress.abort {s u : State} (h : EnumProgress s u) (hgo : ¬ u.enumStops = true)
    (hno : ¬ u.nextPass.2 = .ok) : EnumOutcome s u.nextPass.1 := by
  obtain ⟨frame, passes, -, ⟨hcount, hcache, -⟩, hdisarmed, -, haborted⟩ := u.nextPass_leaves
  obtain ⟨hsok, hevents, habort⟩ := haborted hno
  obtain ⟨others, count, events⟩ := h.entries
  have hcompleted : u.nextPass.1.completedPasses = u.passes := by
    rw [State.completedPasses, hsok, passes]
    rfl
  refine
    { running := (h.running.countPass hgo).searchPass
      frame := h.frame.trans frame
      others := by rw [hcount, hcache]; exact others
      count := by rw [hcompleted, hcount]; exact count
      noPass := ?noPass
      stopped := .inr (.inr (.inr hsok))
      events := ?events
      later := fun _ => ⟨hdisarmed, fun _ => habort⟩ }
  case noPass =>
    rw [passes, h.lastdev hgo]
    exact ⟨nofun, nofun⟩
  case events =>
    rw [hevents, hcompleted, hcount, passes, events]
    simp [hsok]

theorem enumLoop_outcome {s : State} (h : Running s) (hc : s.ccount.toNat = 0) (h0 : s.passes = 0) :
    EnumOutcome s (enumLoop (s.params.passLimit + 1) s) := by
  refine enumLoop_rule (P := EnumProgress s) (fun u hu => hu.stop) (fun u hu hgo => ?_) _ s
    (.start h hc h0) (by omega) (by omega)
  split
  · rename_i hok
    exact hu.next hgo hok
  · rename_i hno
    exact hu.abort hgo hno

theorem Running.enumStart {i : Instr} {s : State} {ld : Byte} (h : Running (s.accept i .host))
    (hld : ld.toNat ≤ 64) (lastdev : Bool) : Running (s.enumStart i ld lastdev) :=
  { h with
    ld := hld
    ccount := Nat.zero_le _
    cacheValid := fun _ _ he => absurd he (Nat.not_lt_zero _)
    passes := Nat.zero_le _ }

/-- EV_DONE comes last and joins the events raised before it. -/
theorem or_done_last (events x : Byte) : events ||| x ||| 0x08#8 = events ||| 0x08#8 ||| x := by
  ac_rfl

/-- What ENUM and ENUMC leave before their end; they begin with LASTDEV = 1 only when ENUMC finds it
so (R161, R162). -/
theorem exec_enumeration {i : Instr} {s : State} (hi : i = .enum ∨ i = .enumc) (h : Inv s)
    (hb : s.status.busy = false) :
    ∃ ld lastdev t, (lastdev = true ↔ i = .enumc ∧ s.status.lastdev = true) ∧
      EnumOutcome (s.enumStart i ld lastdev) t ∧ exec i s = .next t.endHost := by
  have hrun : Running (s.accept i .host) :=
    h.accept (h.idle_of_not_busy (ne_true_of_eq_false hb)) i .host
  rcases hi with rfl | rfl
  · exact ⟨0x00#8, false, _, by simp, enumLoop_outcome (hrun.enumStart (by decide) _) rfl rfl,
      exec_enum hb⟩
  · exact ⟨s.ld, s.status.lastdev, _, by simp,
      enumLoop_outcome (hrun.enumStart h.ld _) rfl rfl, exec_enumc hb⟩

/-- Settles O42: the outcome of the loop, then the command's end. -/
theorem enumerationEndsWithValidEntries : Obligations.EnumerationEndsWithValidEntries := by
  intro i s hi h hb
  obtain ⟨ld, lastdev, t, hlast, houtcome, hexec⟩ := exec_enumeration hi h hb
  obtain ⟨running, frame, others, count, noPass, stopped, events, later⟩ := houtcome
  have hparams : t.params = s.params := frame.params
  refine ⟨t.endHost, hexec, congrArg State.endHost frame.1, frame.2, hparams ▸ running.passes,
    noPass.trans hlast, count, hparams ▸ running.ccount, hparams ▸ running.cacheLength,
    fun e x hx => ?entry, stopped, ?events, later⟩
  case entry =>
    split
    · rename_i he
      exact running.cacheValid e x he hx
    · rename_i he
      exact (others e (not_lt.mp he)).symm.trans hx
  case events =>
    refine (congrArg (· ||| 0x08#8) events).trans ?_
    rw [or_done_last, or_done_last]
    rfl

end Sys2Proof.Machine
end

section
/-!
PROOFS. ENUM and ENUMC on the wired-AND bus (spec/43_search.md R161 to R164, R166): the slaves,
listed greatest first, are found in that order. `Pending` says which are still to be found, and
`EnumFound` what holds at the head of `RunEnum`'s loop.
-/

namespace Sys2Proof.Machine

/-! ### The next slave of a list in line order -/

/-- At the first position at which they differ the greater one has 1. -/
theorem LineGreater.bits {x y : Ident} (h : LineGreater x y) {n : Nat} (h1 : 1 ≤ n) (h64 : n ≤ 64)
    (hbefore : ∀ m, 1 ≤ m → m < n → romBit y m = romBit x m) (hdiff : romBit y n ≠ romBit x n) :
    romBit x n = true := by
  by_contra hx
  have hy : romBit y n = true := by
    cases hxn : romBit x n with
    | true => exact absurd hxn hx
    | false => exact Bool.eq_true_of_not_eq_false (hxn ▸ hdiff)
  exact h.asymm ⟨n, h1, h64, hbefore, hy, Bool.eq_false_iff.mpr hx⟩

/-- From LD = 0 a pass is led to the greatest slave (R166). -/
theorem follows_greatest {x : Ident} {rest : List Ident} (prev : Ident)
    (hsorted : (x :: rest).Pairwise LineGreater) : Follows (x :: rest) prev 0 x := by
  refine ⟨List.mem_cons_self, fun n h1 h64 y hy hdiff => ?_⟩
  obtain ⟨hslave, hbefore⟩ := mem_inSearch.mp hy
  have hyx : y ≠ x := fun h => hdiff (congrArg (romBit · n) h)
  have hgreater : LineGreater x y :=
    (List.pairwise_cons.mp hsorted).1 y ((List.mem_cons.mp hslave).resolve_left hyx)
  rw [hgreater.bits h1 h64 hbefore hdiff, if_neg (by omega), decide_eq_true (by omega)]

section Sorted

variable {before rest : List Ident} {w : Ident}
  (hsorted : (before ++ w :: rest).Pairwise LineGreater)
include hsorted

/-- The slaves smaller than w are those listed after it. -/
theorem mem_rest_of_lineGreater {y : Ident} (hy : y ∈ before ++ w :: rest) (hwy : LineGreater w y) :
    y ∈ rest := by
  obtain ⟨-, -, hcross⟩ := List.pairwise_append.mp hsorted
  rcases List.mem_append.mp hy with hy | hy
  · exact (hwy.asymm (hcross y hy w List.mem_cons_self)).elim
  · rcases List.mem_cons.mp hy with rfl | hy
    · exact (LineGreater.irrefl _ hwy).elim
    · exact hy

theorem lineGreater_of_mem_rest {y : Ident} (hy : y ∈ rest) : LineGreater w y := by
  obtain ⟨-, htail, -⟩ := List.pairwise_append.mp hsorted
  exact (List.pairwise_cons.mp htail).1 y hy

end Sorted

/-- No slave lies between w and the one listed after it. -/
theorem not_lineGreater_next {before rest : List Ident} {w x y : Ident}
    (hsorted : (before ++ w :: x :: rest).Pairwise LineGreater) (hy : y ∈ before ++ w :: x :: rest)
    (hwy : LineGreater w y) : ¬ LineGreater y x := by
  intro hyx
  obtain ⟨-, htail, -⟩ := List.pairwise_append.mp hsorted
  rcases List.mem_cons.mp (mem_rest_of_lineGreater hsorted hy hwy) with rfl | hrest
  · exact LineGreater.irrefl _ hyx
  · exact hyx.asymm ((List.pairwise_cons.mp (List.pairwise_cons.mp htail).2).1 y hrest)

/-- After a pass that found w, the next one is led to the slave listed after w (R154, R166). -/
theorem follows_next {before rest : List Ident} {w x : Ident} {ld : Nat}
    (hsorted : (before ++ w :: x :: rest).Pairwise LineGreater) (h1 : 1 ≤ ld) (h64 : ld ≤ 64)
    (huntaken : untaken (before ++ w :: x :: rest) w ld)
    (hmax : ∀ n, 1 ≤ n → n ≤ 64 → untaken (before ++ w :: x :: rest) w n → n ≤ ld) :
    Follows (before ++ w :: x :: rest) w ld x := by
  have hx : x ∈ before ++ w :: x :: rest := by simp
  have hwx : LineGreater w x := lineGreater_of_mem_rest hsorted List.mem_cons_self
  obtain ⟨hone, y0, hy0, hzero⟩ := huntaken
  obtain ⟨hslave0, hagree0⟩ := mem_inSearch.mp hy0
  have hwy0 : LineGreater w y0 := lineGreater_of_mem_inSearch h1 h64 hy0 hone hzero
  obtain ⟨n, hn1, hn64, hle, hbefore, hwn, hxn⟩ := hwx.exists_le hx hmax
  obtain rfl : n = ld := by
    by_contra hne
    have hlt : n < ld := by omega
    exact not_lineGreater_next hsorted hslave0 hwy0
      ⟨n, hn1, hn64, fun m hm hmn => (hagree0 m hm (hmn.trans hlt)).trans (hbefore m hm hmn),
        (hagree0 n hn1 hlt).trans hwn, hxn⟩
  refine ⟨hx, fun m hm1 hm64 y hy hdiff => ?_⟩
  obtain ⟨hslave, hagree⟩ := mem_inSearch.mp hy
  rcases Nat.lt_trichotomy m n with hlt | rfl | hlt
  · rw [if_pos hlt, hbefore m hm1 hlt]
  · rw [hxn, if_neg (Nat.lt_irrefl m), decide_eq_false (Nat.lt_irrefl m)]
  · have hwy : LineGreater w y := ⟨n, hn1, hn64,
      fun i hi hin => (hbefore i hi hin).trans (hagree i hi (hin.trans hlt)).symm, hwn,
      (hagree n hn1 hlt).trans hxn⟩
    have hbit : romBit x m = true := by
      by_contra hxm
      have hxm' : romBit x m = false := Bool.eq_false_iff.mpr hxm
      exact not_lineGreater_next hsorted hslave hwy
        ⟨m, hm1, hm64, hagree, Bool.eq_true_of_not_eq_false (hxm' ▸ hdiff), hxm'⟩
    rw [hbit, if_neg (by omega), decide_eq_true hlt]

/-! ### The slaves still to be found -/

/-- `rest` are the slaves still to be found: all of them as an enumeration begins, or those listed
after the one the last pass found (R150). -/
def Pending (slaves rest : List Ident) (s : State) : Prop :=
  (rest ≠ [] ∧ slaves = rest ∧ s.ld = 0x00#8 ∧ s.status.lastdev = false) ∨
    (Enumerating slaves s ∧ ∃ before, slaves = before ++ s.rombuf :: rest)

/-- LASTDEV says that none is left (R150, R163). -/
theorem Pending.lastdev_eq {slaves rest : List Ident} {s : State} (h : Pending slaves rest s)
    (hsorted : slaves.Pairwise LineGreater) : s.status.lastdev = decide (rest = []) := by
  rcases h with ⟨hne, -, -, hlast⟩ | ⟨henum, before, rfl⟩
  · rw [hlast, decide_eq_false hne]
  · cases hlast : s.status.lastdev with
    | false =>
      obtain ⟨h1, h64, hone, y, hy, hzero⟩ := henum.next hlast
      have hrest : y ∈ rest := mem_rest_of_lineGreater hsorted (mem_inSearch.mp hy).1
        (lineGreater_of_mem_inSearch h1 h64 hy hone hzero)
      rw [decide_eq_false (List.ne_nil_of_mem hrest)]
    | true =>
      obtain ⟨-, hmax, -, hld⟩ := henum
      have hld0 : s.ld = 0x00#8 := by simpa [hlast] using hld
      symm
      rw [decide_eq_true_eq, List.eq_nil_iff_forall_not_mem]
      intro x hx
      obtain ⟨n, h1, -, hle, -⟩ :=
        (lineGreater_of_mem_rest hsorted hx).exists_le (by simp [hx]) hmax
      rw [hld0] at hle
      exact absurd (h1.trans hle) (by decide)

/-- The next pass is led to the first of them. -/
theorem Pending.follows {slaves rest : List Ident} {x : Ident} {s : State}
    (h : Pending slaves (x :: rest) s) (hsorted : slaves.Pairwise LineGreater) :
    Follows slaves s.rombuf s.ld.toNat x := by
  have hlast := h.lastdev_eq hsorted
  rcases h with ⟨-, rfl, hld, -⟩ | ⟨henum, before, rfl⟩
  · rw [hld]
    exact follows_greatest s.rombuf hsorted
  · obtain ⟨h1, h64, huntaken⟩ := henum.next (hlast.trans (decide_eq_false nofun))
    exact follows_next hsorted h1 h64 huntaken henum.2.1

/-- That pass completes and finds it (R164). -/
theorem Pending.searchPass {slaves rest : List Ident} {x : Ident} {s : State}
    (h : Pending slaves (x :: rest) s) (hsorted : slaves.Pairwise LineGreater)
    (hbus : BusAnswers s.env 0 slaves x) :
    ∃ t : State, s.searchPass = (t, .ok) ∧ Enumerating slaves t ∧ Pending slaves rest t ∧
      t = { s.afterLine 129 (passTrace s.params s.env 0 s.rombuf s.ld.toNat 64) with
        rombuf := x, lastzero := t.lastzero, ld := t.ld
        status := { s.status with
          pd := true, arm := false, lastdev := t.status.lastdev, sok := true
          crcok := validRom x } } := by
  have hfollows := h.follows hsorted
  have hpres : s.env.sampleAt 0 = false :=
    hbus.1.trans (by simpa using List.ne_nil_of_mem hfollows.1)
  obtain ⟨buf, z, hbits, hz, hpass⟩ := s.searchPass_ok hpres fun n h1 h64 =>
    Bool.eq_false_iff.mpr fun hx => hfollows.answered hbus h1 h64 (Bool.and_eq_true_iff.mp hx)
  obtain rfl := hfollows.eq_of_passBits hbus hbits
  have hfound : ∃ before, slaves = before ++ buf :: rest := by
    rcases h with ⟨-, hall, -, -⟩ | ⟨-, before, hall⟩
    · exact ⟨[], hall⟩
    · exact ⟨before ++ [s.rombuf], by rw [hall, List.append_assoc]; rfl⟩
  have henum := hfollows.enumerating hbus hz (t := s.searchPass.1) (by rw [hpass]) (by rw [hpass])
    (by rw [hpass])
  rw [hpass] at henum
  exact ⟨_, hpass, henum, .inr ⟨henum, hfound⟩, rfl⟩

/-! ### Nominal time of a completed pass (R241) -/

theorem traceTime_append (ps qs : List Phase) :
    traceTime (ps ++ qs) = traceTime ps + traceTime qs := by
  simp [traceTime]

theorem traceTime_flatMap {f : Nat → List Phase} {c : Nat} (h : ∀ i, traceTime (f i) = c)
    (l : List Nat) : traceTime (l.flatMap f) = l.length * c := by
  induction l with
  | nil => simp [traceTime]
  | cons i l ih =>
    rw [List.flatMap_cons, traceTime_append, h, ih, List.length_cons, Nat.succ_mul, Nat.add_comm]

theorem traceTime_writeTrace (b : Bool) : traceTime (writeTrace Config.standard b) = 70 := by
  cases b <;> rfl

theorem traceTime_passTrace (e : Env) (prev : Ident) (ld : Nat) :
    traceTime (passTrace Config.standard e 0 prev ld 64) = 14960 := by
  have hread (b : Bool) : traceTime (readTrace Config.standard b) = 70 := rfl
  have hreset : traceTime (resetTrace Config.standard false) = 960 := rfl
  have hbyte : traceTime (writeByteTrace Config.standard 0xF0#8) = 8 * 70 :=
    traceTime_flatMap (fun _ => traceTime_writeTrace _) _
  have hposition (n : Nat) : traceTime (positionTrace Config.standard e 0 prev ld n) = 210 := by
    rw [positionTrace, traceTime_append, traceTime_append, hread, hread, traceTime_writeTrace]
  rw [passTrace, traceTime_append, traceTime_append, hreset, hbyte,
    traceTime_flatMap fun i => hposition (i + 1), List.length_range]

/-! ### The cache on the bus (R160) -/

@[simp] theorem State.insertRom_env (s : State) : s.insertRom.env = s.env := by
  rw [State.insertRom_frame]

theorem cachedOf_succ {rest : List Ident} {k : Nat} {x : Ident} (h : rest[k]? = some x) :
    cachedOf rest (k + 1) = cachedOf rest k ++ if validRom x then [x] else [] := by
  rw [cachedOf, List.take_add_one, List.filter_append, h, Option.toList_some, List.filter_singleton,
    Bool.cond_eq_ite]
  rfl

/-- What k passes that found the first k of `rest` have made of the cache and of EVENTS, in an
enumeration that began in s. -/
structure FoundEntries (rest : List Ident) (s : State) (k : Nat) (u : State) : Prop where
  ccount : u.ccount.toNat = (cachedOf rest k).length
  cached : ∀ (e : Nat) (x : Ident), (cachedOf rest k)[e]? = some x → u.cache[e]? = some x
  events : u.events = s.events ||| (if (rest.take k).all validRom then 0x00#8 else 0x20#8)

theorem FoundEntries.insertRom {rest : List Ident} {s u : State} {k : Nat}
    (h : FoundEntries rest s k u) (hx : rest[k]? = some u.rombuf)
    (hcrc : u.status.crcok = validRom u.rombuf)
    (hsucc : (u.ccount + 1).toNat = u.ccount.toNat + 1)
    (hroom : u.ccount.toNat < u.cache.length) : FoundEntries rest s (k + 1) u.insertRom := by
  obtain ⟨ccount, cached, events⟩ := h
  have hall : (rest.take (k + 1)).all validRom =
      ((rest.take k).all validRom && validRom u.rombuf) := by
    rw [List.take_add_one, List.all_append, hx]
    simp
  cases hv : validRom u.rombuf with
  | true =>
    have hcached : cachedOf rest (k + 1) = cachedOf rest k ++ [u.rombuf] := by
      rw [cachedOf_succ hx, if_pos hv]
    rw [State.insertRom_of_crcok (hcrc.trans hv)]
    constructor
    case ccount => rw [hcached, hsucc, ccount, List.length_append, List.length_singleton]
    case cached =>
      intro e x he
      rw [hcached] at he
      rcases Nat.lt_or_ge e (cachedOf rest k).length with hlt | hge
      · rw [List.getElem?_append_left hlt] at he
        rw [List.getElem?_set_ne (by omega), cached e x he]
      · rw [List.getElem?_append_right hge] at he
        obtain ⟨h0, rfl⟩ : e - (cachedOf rest k).length = 0 ∧ u.rombuf = x := by
          simpa [List.getElem?_singleton] using he
        have hend : e = u.ccount.toNat := by omega
        rw [hend, List.getElem?_set_self hroom]
    case events => rw [hall, hv, Bool.and_true, events]
  | false =>
    have hcached : cachedOf rest (k + 1) = cachedOf rest k := by
      rw [cachedOf_succ hx, hv, if_neg nofun, List.append_nil]
    rw [State.insertRom_of_not_crcok (by simp [hcrc, hv])]
    refine ⟨by rw [hcached]; exact ccount, by rw [hcached]; exact cached, ?_⟩
    rw [hall, hv, Bool.and_false, if_neg nofun, events]
    split
    · rw [BitVec.or_zero]
    · rw [BitVec.or_assoc, BitVec.or_self]

/-! ### The head of the loop on the bus -/

/-- At the head of the loop that began in s, when `rest` were still to be found: each pass so far
has found the next of them. -/
structure EnumFound (slaves rest : List Ident) (s u : State) : Prop where
  running : Running u
  params : u.params = s.params
  samples : ∀ j, u.env.sampleAt j = s.env.sampleAt (129 * u.passes + j)
  passes : u.passes ≤ rest.length
  pending : Pending slaves (rest.drop u.passes) u
  room : ∀ j < u.passes, (cachedOf rest j).length < s.params.cacheDepth
  entries : FoundEntries rest s u.passes u
  lineTime : s.params = Config.standard →
    traceTime u.env.trace = traceTime s.env.trace + 14960 * u.passes
  later : 1 ≤ u.passes → rest[u.passes - 1]? = some u.rombuf ∧ Enumerating slaves u ∧
    u.status.sok = true ∧ u.status.pd = true ∧ u.status.arm = false ∧
    u.status.crcok = validRom u.rombuf

theorem EnumFound.start {slaves rest : List Ident} {s : State} (h : Running s)
    (hc : s.ccount.toNat = 0) (h0 : s.passes = 0) (hp : Pending slaves rest s) :
    EnumFound slaves rest s s where
  running := h
  params := rfl
  samples j := by rw [h0, Nat.mul_zero, Nat.zero_add]
  passes := by omega
  pending := by rwa [h0]
  room j hj := by omega
  entries := by
    rw [h0]
    exact ⟨hc, nofun, by simp⟩
  lineTime _ := by rw [h0]; rfl
  later h1 := by omega

/-- A pass whose presence sample is the k-th to come answers as one that begins after k samples. -/
theorem busAnswers_of_samples {e e' : Env} {k : Nat} {slaves : List Ident} {x : Ident}
    (hs : ∀ j, e'.sampleAt j = e.sampleAt (k + j)) (h : BusAnswers e k slaves x) :
    BusAnswers e' 0 slaves x := by
  simpa only [BusAnswers, identityBit, complementBit, hs, Nat.zero_add, Nat.add_zero] using h

section OnBus

variable {slaves rest : List Ident} {s : State} (hsorted : slaves.Pairwise LineGreater)
  (hbus : ∀ j (h : j < rest.length), BusAnswers s.env (129 * j) slaves rest[j])
include hsorted hbus

/-- One more pass finds the next slave (R164). -/
theorem EnumFound.next {u : State} (h : EnumFound slaves rest s u) (hgo : ¬ u.enumStops = true) :
    u.nextPass.2 = .ok ∧ EnumFound slaves rest s u.nextPass.1.insertRom := by
  have hlast : u.status.lastdev ≠ true := fun hl => hgo (by simp [State.enumStops, hl])
  rw [h.pending.lastdev_eq hsorted, ne_eq, decide_eq_true_eq] at hlast
  obtain ⟨x, rest', hdrop⟩ := List.exists_cons_of_ne_nil hlast
  have hx : rest[u.passes]? = some x := by rw [← List.head?_drop, hdrop, List.head?_cons]
  obtain ⟨hlt, hget⟩ := List.getElem?_eq_some_iff.mp hx
  have hrest : rest.drop (u.passes + 1) = rest' := by rw [← List.tail_drop, hdrop, List.tail_cons]
  have hpending : Pending slaves (x :: rest') { u with passes := u.passes + 1 } :=
    hdrop ▸ h.pending
  obtain ⟨v, hpass, henum, hleft, hv⟩ := hpending.searchPass hsorted
    (busAnswers_of_samples h.samples (hget ▸ hbus u.passes hlt))
  have hnext : u.nextPass = (v, .ok) := hpass
  have hrun : Running v := by
    have hrun := (h.running.countPass hgo).searchPass
    rwa [hpass] at hrun
  obtain ⟨hparams, hpasses, hccount, hcache, hevents, hrombuf, henv⟩ :
      v.params = u.params ∧ v.passes = u.passes + 1 ∧ v.ccount = u.ccount ∧ v.cache = u.cache ∧
        v.events = u.events ∧ v.rombuf = x ∧
        v.env = u.env.after 129 (passTrace u.params u.env 0 u.rombuf u.ld.toNat 64) := by
    rw [hv]
    exact ⟨rfl, rfl, rfl, rfl, rfl, rfl, rfl⟩
  have hcrc : v.status.crcok = validRom v.rombuf := by rw [hrombuf, hv]
  have hroom : v.ccount.toNat < v.params.cacheDepth := by
    rw [hccount, hparams]
    exact h.running.room hgo
  have hentries : FoundEntries rest s u.passes v :=
    ⟨by rw [hccount]; exact h.entries.ccount, by rw [hcache]; exact h.entries.cached,
      by rw [hevents]; exact h.entries.events⟩
  refine ⟨by rw [hnext], ?_⟩
  rw [hnext]
  constructor
  case running => exact hrun.insertRom hcrc hroom
  case params => rw [State.insertRom_params, hparams, h.params]
  case samples =>
    intro j
    have hcount : 129 * u.passes + (129 + j) = 129 * (u.passes + 1) + j := by omega
    rw [State.insertRom_passes, State.insertRom_env, hpasses, henv, Env.sampleAt_after, h.samples,
      hcount]
  case passes => rw [State.insertRom_passes, hpasses]; exact hlt
  case pending =>
    rw [State.insertRom_passes, hpasses, hrest, State.insertRom_frame]
    exact hleft
  case room =>
    intro j hj
    rw [State.insertRom_passes, hpasses] at hj
    rcases Nat.lt_succ_iff_lt_or_eq.mp hj with hj | rfl
    · exact h.room j hj
    · rw [← h.entries.ccount, ← h.params]
      exact h.running.room hgo
  case entries =>
    rw [State.insertRom_passes, hpasses]
    exact hentries.insertRom (by rw [hrombuf]; exact hx) hcrc (hrun.ccount_succ hroom)
      (by rw [hrun.cacheLength]; exact hroom)
  case lineTime =>
    intro hstd
    rw [State.insertRom_passes, State.insertRom_env, hpasses, henv, Env.after_trace,
      traceTime_append, h.lineTime hstd, h.params, hstd, traceTime_passTrace, Nat.mul_succ,
      Nat.add_assoc]
  case later =>
    intro _
    rw [State.insertRom_passes, hpasses, State.insertRom_frame]
    exact ⟨by rw [hrombuf]; exact hx, henum, by rw [hv], by rw [hv], by rw [hv], hcrc⟩

/-- The loop ends at its head. -/
theorem enumLoop_finds (hrun : Running s) (hc : s.ccount.toNat = 0) (h0 : s.passes = 0)
    (hp : Pending slaves rest s) :
    EnumFound slaves rest s (enumLoop (s.params.passLimit + 1) s) ∧
      (enumLoop (s.params.passLimit + 1) s).enumStops = true := by
  refine enumLoop_rule (P := EnumFound slaves rest s)
    (Q := fun t => EnumFound slaves rest s t ∧ t.enumStops = true) (fun u hu hstop => ⟨hu, hstop⟩)
    (fun u hu hgo => ?_) _ s (.start hrun hc h0 hp) (by omega) (by omega)
  obtain ⟨hok, hnext⟩ := hu.next hsorted hbus hgo
  rwa [if_pos hok]

end OnBus

/-- What the loop leaves when it stops at its head, with the command's end after it. -/
theorem EnumFound.findsInOrder {slaves rest : List Ident} {s t : State} {i : Instr} {ld : Byte}
    {lastdev : Bool} (h : EnumFound slaves rest (s.enumStart i ld lastdev) t)
    (hstop : t.enumStops = true) (hsorted : slaves.Pairwise LineGreater) (hne : rest ≠ []) :
    FindsInOrder slaves rest s t.endHost t.passes := by
  have hend : rest.drop t.passes = [] ↔ t.passes = rest.length := by
    rw [List.drop_eq_nil_iff]
    exact ⟨h.passes.antisymm, fun heq => heq.ge⟩
  have hlast : t.status.lastdev = decide (t.passes = rest.length) :=
    (h.pending.lastdev_eq hsorted).trans (decide_eq_decide.mpr hend)
  have h1 : 1 ≤ t.passes := by
    by_contra hlt
    have h0 : t.passes = 0 := by omega
    have hc : t.ccount.toNat = 0 := by rw [h.entries.ccount, h0]; rfl
    have hl := State.lastdev_of_enumStops h.running.params hc h0 hstop
    rw [hlast, decide_eq_true_eq, h0] at hl
    exact hne (List.length_eq_zero_iff.mp hl.symm)
  obtain ⟨found, henum, hsok, hpd, harm, hcrc⟩ := h.later h1
  exact
    { passes := ⟨rfl, h1, h.passes, h.params ▸ h.running.passes⟩
      room := h.room
      stopped := by
        simp only [State.enumStops, Bool.or_eq_true, beq_iff_eq, hlast, decide_eq_true_eq,
          h.entries.ccount, h.params] at hstop
        rcases hstop with (hall | hfull) | hlimit
        · exact .inl hall
        · exact .inr (.inl hfull)
        · exact .inr (.inr hlimit)
      ccount := h.entries.ccount
      cached := h.entries.cached
      found := found
      enumerating := henum
      lastdev := hlast
      flags := ⟨hsok, hpd, harm, hcrc⟩
      events := (congrArg (· ||| 0x08#8) h.entries.events).trans (or_done_last _ _)
      lineTime := h.lineTime }

/-- An enumeration on the bus, whichever command runs it. -/
theorem exec_finds {slaves rest : List Ident} {s : State} {i : Instr} {ld : Byte} {lastdev : Bool}
    (hexec : exec i s =
      .next (enumLoop (s.params.passLimit + 1) (s.enumStart i ld lastdev)).endHost)
    (h : Inv s) (hb : s.status.busy = false) (hld : ld.toNat ≤ 64)
    (hsorted : slaves.Pairwise LineGreater) (hne : rest ≠ [])
    (hbus : ∀ j (h : j < rest.length), BusAnswers s.env (129 * j) slaves rest[j])
    (hp : Pending slaves rest (s.enumStart i ld lastdev)) :
    ∃ t k, exec i s = .next t ∧ FindsInOrder slaves rest s t k := by
  have hrun : Running (s.accept i .host) :=
    h.accept (h.idle_of_not_busy (ne_true_of_eq_false hb)) i .host
  obtain ⟨hfound, hstop⟩ := enumLoop_finds (s := s.enumStart i ld lastdev) hsorted hbus
    (hrun.enumStart hld lastdev) rfl rfl hp
  exact ⟨_, _, hexec, hfound.findsInOrder hstop hsorted hne⟩

/-- Settles O43: every slave is still to be found as the enumeration begins. -/
theorem enumFindsEverySlave : Obligations.EnumFindsEverySlave := by
  intro slaves s hne hsorted h hb hbus
  exact exec_finds (exec_enum hb) h hb (by decide) hsorted hne hbus (.inl ⟨hne, rfl, rfl, rfl⟩)

/-- Settles O44: the slaves after ROMBUF are still to be found, and LASTDEV = 0 says that there is
one. -/
theorem enumcFindsTheRemainingSlaves : Obligations.EnumcFindsTheRemainingSlaves := by
  intro before rest s slaves hsorted h hb henum hlast hbus
  have hp : Pending slaves rest s := .inr ⟨henum, before, rfl⟩
  have hne : rest ≠ [] := decide_eq_false_iff_not.mp ((hp.lastdev_eq hsorted).symm.trans hlast)
  exact exec_finds (exec_enumc hb) h hb h.ld hsorted hne hbus hp

end Sys2Proof.Machine
end

section
/-!
PROOFS. Who writes LD and LASTDEV (spec/43_search.md R150): no routine but the search pass and the
start of a new enumeration does, and under the invariant the sequencer is at those points only in a
search command.
-/

namespace Sys2Proof.Machine

/-- The commands of spec/43_search.md. -/
def IsSearch (i : Instr) : Prop := i = .srchf ∨ i = .srchn ∨ i = .enum ∨ i = .enumc

/-- The points inside a search pass are theirs (R152). -/
theorem searchSent_belongsTo {op : Instr} :
    Point.searchSent.belongsTo op = true ↔ IsSearch op := by
  simp [Point.belongsTo, IsSearch, or_assoc]

/-- From s to t the search state stayed (R150). -/
def SameSearch (s t : State) : Prop := t.ld = s.ld ∧ t.status.lastdev = s.status.lastdev

/-! ### Routines of the other commands -/

theorem State.romPut_sameSearch (b : RomTarget) (i : Nat) (v : Byte) (s : State) :
    SameSearch s (s.romPut b i v) := by cases b <;> exact ⟨rfl, rfl⟩

theorem State.resetOutcome_sameSearch (s : State) : SameSearch s s.resetOutcome := by
  unfold State.resetOutcome
  split <;> exact ⟨rfl, rfl⟩

theorem State.rdromOutcome_sameSearch (s : State) : SameSearch s s.rdromOutcome := by
  unfold State.rdromOutcome State.raiseIf
  split <;> exact ⟨rfl, rfl⟩

theorem State.removed_sameSearch (s : State) : SameSearch s s.removed := by
  unfold State.removed
  split <;> exact ⟨rfl, rfl⟩

theorem State.present_sameSearch (s : State) : SameSearch s s.present := by
  unfold State.present
  split <;> exact ⟨rfl, rfl⟩

theorem State.pollOutcome_sameSearch (s : State) : SameSearch s s.pollOutcome := by
  unfold State.pollOutcome State.adopt
  split
  · split <;> exact ⟨rfl, rfl⟩
  · exact ⟨rfl, rfl⟩

theorem State.finish_sameSearch (op : Instr) (o : Origin) (s : State) :
    SameSearch s (s.finish op o) := by cases o <;> exact ⟨rfl, rfl⟩

theorem State.perform_sameSearch (p : Prim) (s : State) : SameSearch s (s.perform p).1 := by
  rw [State.perform_eq]
  exact ⟨rfl, rfl⟩

/-! ### Steps of a sequencer that runs no search command -/

/-- The sequencer is at `Idle`, or it runs another command. -/
def OutsideSearch (s : State) : Prop := ∀ op o pos, s.seq = .run op o pos → ¬ IsSearch op

theorem outsideSearch_of_run {s : State} {op : Instr} {o : Origin} {pos : Pos}
    (hop : ¬ IsSearch op) (h : s.seq = .run op o pos) : OutsideSearch s := by
  intro op' o' pos' h'
  cases h.symm.trans h'
  exact hop

theorem outsideSearch_of_idle {s : State} (h : s.seq = .idle) : OutsideSearch s := by
  intro op o pos hs
  cases h.symm.trans hs

/-- From s to t the search state stayed and no search command was started. -/
structure KeepsSearch (s t : State) : Prop where
  same : SameSearch s t
  outside : OutsideSearch t

section OtherCommand

variable {op : Instr} (hop : ¬ IsSearch op)
include hop

theorem KeepsSearch.goto {s u : State} {o : Origin} {todo : List Prim} {pt : Point}
    (h : SameSearch s u) : KeepsSearch s (u.goto op o todo pt) :=
  ⟨h, outsideSearch_of_run hop rfl⟩

theorem State.beginCommand_keepsSearch (o : Origin) (s : State) :
    KeepsSearch s (s.beginCommand op o) := by
  cases op with
  | srchf | srchn | enum | enumc => exact absurd (by simp [IsSearch]) hop
  | _ => exact .goto hop ⟨rfl, rfl⟩

theorem State.afterPresence_keepsSearch (o : Origin) (s : State) :
    KeepsSearch s (s.afterPresence op o) := by
  cases op with
  | reset => exact .goto hop s.resetOutcome_sameSearch
  | poll =>
    rw [State.afterPresence]
    split
    · exact .goto hop s.present_sameSearch
    · exact .goto hop s.removed_sameSearch
  | srchf | srchn | enum | enumc => exact absurd (by simp [IsSearch]) hop
  | wbit | rbit | wbyte | rbyte | crcb | rdrom => exact .goto hop ⟨rfl, rfl⟩

theorem State.afterRom_keepsSearch (o : Origin) (s : State) : KeepsSearch s (s.afterRom op o) := by
  unfold State.afterRom
  split
  · exact .goto hop s.pollOutcome_sameSearch
  · exact .goto hop s.rdromOutcome_sameSearch

/-- A point of the command's own pseudocode is none of a search pass or an enumeration. -/
theorem State.resume_keepsSearch (o : Origin) (got : List Bool) {pt : Point}
    (own : pt.belongsTo op = true) (s : State) : KeepsSearch s (s.resume op o got pt) := by
  cases pt with
  | start => exact s.beginCommand_keepsSearch hop o
  | presence | bitRead | byteRead => exact .goto hop ⟨rfl, rfl⟩
  | presenceKnown => exact s.afterPresence_keepsSearch hop o
  | romByte i =>
    rw [State.resume]
    split
    · exact .goto hop (s.romPut_sameSearch _ _ _)
    · exact .goto hop (s.romPut_sameSearch _ _ _)
  | romDone => exact s.afterRom_keepsSearch hop o
  | searchSent | pair n | written n | passDone r => exact absurd (searchSent_belongsTo.mp own) hop
  | enumHead => exact absurd (.inr (.inr (enumHead_belongsTo.mp own))) hop
  | finish => exact ⟨s.finish_sameSearch op o, outsideSearch_of_idle (s.finish_seq op o)⟩

end OtherCommand

/-- A step of the sequencer: the autopoll it may start is no search command. -/
theorem Inv.seqStep_keepsSearch {s : State} (h : Inv s) (hout : OutsideSearch s) :
    KeepsSearch s s.seqStep := by
  unfold State.seqStep
  split
  · split
    · exact ⟨⟨rfl, rfl⟩, outsideSearch_of_run (op := .poll) (by simp [IsSearch]) rfl⟩
    · exact ⟨⟨rfl, rfl⟩, hout⟩
  · rename_i op o pos hs
    have hop := hout op o pos hs
    split
    · exact s.resume_keepsSearch hop o _ (h.pos op o pos hs).own
    · exact ⟨s.perform_sameSearch _, outsideSearch_of_run hop rfl⟩

theorem Inv.seqSteps_sameSearch {s : State} (h : Inv s) (hout : OutsideSearch s) (n : Nat) :
    SameSearch s (s.seqSteps n) := by
  induction n generalizing s with
  | zero => exact ⟨rfl, rfl⟩
  | succ n ih =>
    obtain ⟨hsame, hout'⟩ := h.seqStep_keepsSearch hout
    have hrest := ih h.seqStep hout'
    exact ⟨hrest.1.trans hsame.1, hrest.2.trans hsame.2⟩

/-- Another command, run whole: it is its acceptance and a run of sequencer steps (R81). -/
theorem exec_sameSearch {i : Instr} {s t : State} (h : Inv s) (hi : ¬ IsSearch i)
    (ht : exec i s = .next t) : SameSearch s t := by
  rw [exec_eq_hostCommand] at ht
  cases ht
  unfold hostCommand
  split
  · exact ⟨rfl, rfl⟩
  · rename_i hb
    split
    · obtain ⟨n, hn⟩ := reaches_commandBody i .host (s.accept i .host)
      have hrun : SameSearch (s.accept i .host)
          (((s.accept i .host).goto i .host [] .start).seqSteps n) :=
        (h.acceptStart (h.idle_of_not_busy hb) i .host).seqSteps_sameSearch
          (outsideSearch_of_run hi rfl) n
      rw [hn] at hrun
      exact hrun
    · exact ⟨rfl, rfl⟩

/-! ### The host's side (R51) -/

theorem State.dispatch_sameSearch (v : Byte) (s : State) : SameSearch s (s.dispatch v) := by
  unfold State.dispatch
  split
  · exact ⟨rfl, rfl⟩
  · split
    · exact ⟨rfl, rfl⟩
    · split <;> exact ⟨rfl, rfl⟩

theorem State.hostAccess_sameSearch {acc : HostAccess} {s t : State}
    (ht : s.hostAccess acc = .next t) : SameSearch s t := by
  cases acc with
  | read a width =>
    rw [State.hostAccess] at ht
    split at ht
    · cases ht
      unfold State.memRead
      dsimp only
      split <;> exact ⟨rfl, rfl⟩
    · cases ht
  | write a width v =>
    rw [State.hostAccess] at ht
    split at ht
    · cases ht
      cases addrReg a with
      | cmd => exact s.dispatch_sameSearch v
      | data => rw [State.memWrite_data]; exact ⟨rfl, rfl⟩
      | crc => rw [State.memWrite_crc]; exact ⟨rfl, rfl⟩
      | _ => exact ⟨rfl, rfl⟩
    · cases ht

/-- The only command values that change the search state are the opcodes of search commands. -/
theorem Inv.command_sameSearch {v : Byte} {s t : State} (h : Inv s) (ht : s.command v = .next t) :
    SameSearch s t ∨ ∃ i, v = opcode i ∧ IsSearch i := by
  rcases decodeOpcode_illegal_or_ok v with hv | ⟨i, hv, hi⟩
  · rw [State.command_of_illegal s hv] at ht
    cases ht
    exact .inl ⟨rfl, rfl⟩
  · rw [State.command_of_opcode s hv] at ht
    by_cases hsearch : IsSearch i
    · exact .inr ⟨i, hi.symm, hsearch⟩
    · exact .inl (exec_sameSearch h hsearch ht)

theorem Inv.seqStep_sameSearch {s : State} (h : Inv s) :
    SameSearch s s.seqStep ∨ ∃ i o pos, s.seq = .run i o pos ∧ IsSearch i := by
  by_cases hout : OutsideSearch s
  · exact .inl (h.seqStep_keepsSearch hout).same
  · unfold OutsideSearch at hout
    push Not at hout
    exact .inr hout

/-- Settles O45, by what the step takes: no input (the sequencer moves) or the next input. -/
theorem onlySearchCommandsWriteTheSearchState :
    Obligations.OnlySearchCommandsWriteTheSearchState := by
  intro s t h ht hne
  have hchanged : ¬ SameSearch s t := fun ⟨hld, hlast⟩ => hne.elim (· hld) (· hlast)
  match hin : s.env.inputs with
  | [] =>
    cases (step_of_no_input hin).symm.trans ht
    exact .inr (.inr ⟨.inl rfl, h.seqStep_sameSearch.resolve_left hchanged⟩)
  | inp :: rest =>
    rw [step_of_input hin] at ht
    have h' : Inv (s.withInputs rest) := h.withEnv _
    cases inp with
    | seq =>
      cases ht
      exact .inr (.inr ⟨.inr ⟨rest, rfl⟩, h'.seqStep_sameSearch.resolve_left hchanged⟩)
    | access acc => exact absurd (State.hostAccess_sameSearch ht) hchanged
    | host w =>
      obtain ⟨acc, -, hacc⟩ := exists_decode_of_hostWord ht
      exact absurd (State.hostAccess_sameSearch hacc) hchanged
    | command v =>
      obtain ⟨i, rfl, hi⟩ := (h'.command_sameSearch ht).resolve_left hchanged
      exact .inl ⟨i, rest, rfl, hi⟩
    | rst => exact .inr (.inl ⟨rest, rfl⟩)
    | elapse us =>
      cases ht
      exact absurd ⟨rfl, rfl⟩ hchanged

end Sys2Proof.Machine
end

section
/-!
PROOFS. Read-ROM and the presence & identity tracker (spec/44_presence.md): RDROM (R182), POLL by the
presence it finds (R184 to R188), the edges it reports (R189), and the poll the autopoll starts
(R190). One equation says what each routine leaves; a command is its routines in a row, between the
acceptance and the end that every command has.
-/

namespace Sys2Proof.Machine

/-! ### RDROM (R182) -/

theorem mayAccept_rdrom_of_not_arm {s : State} (h : s.status.arm = false) :
    mayAccept .rdrom s = false := h

/-- Settles O22: both grains ask for ARM before they accept RDROM. -/
theorem rdromWithoutArmIsRejected : Obligations.RdromWithoutArmIsRejected := by
  intro s hb ha
  have hno := mayAccept_rdrom_of_not_arm ha
  constructor
  · simp [exec_eq_hostCommand, hostCommand, hb, hno, State.reject_eq]
  · have hop : decodeOpcode 0x10#8 = .ok .rdrom := rfl
    simp [State.memWrite, State.dispatch, hb, hop, hno, State.reject_eq]

/-- CRCOK is the check of ROMBUF, and a mismatch raises ERR_CRC (R182). -/
theorem State.rdromOutcome_eq (s : State) :
    s.rdromOutcome = { s with
      status := { s.status with crcok := validRom s.rombuf }
      events := s.events ||| (if validRom s.rombuf then 0x00#8 else 0x20#8) } := by
  unfold State.rdromOutcome
  cases validRom s.rombuf with
  | true => simp [State.raiseIf]
  | false => rfl

/-- RDROM from the buffer it reads (R182). -/
theorem rdromBody_eq (s : State) :
    ∃ buf : Ident, ReadsIdent s.env 0 buf ∧
      rdromBody s =
        { s.afterLine 64
            (writeByteTrace s.params 0x33#8 ++ readsTrace s.params s.env 0 64) with
          rombuf := buf
          status := { s.status with arm := false, crcok := validRom buf }
          events := s.events ||| (if validRom buf then 0x00#8 else 0x20#8) } := by
  obtain ⟨buf, hreads, hrom⟩ := s.disarm.readRom_spec .rombuf
  refine ⟨buf, hreads, ?_⟩
  rw [rdromBody, hrom, State.rdromOutcome_eq]
  rfl

/-- Settles O34: acceptance with ARM = 1, the pseudocode of RDROM, and the end that raises EV_DONE. -/
theorem rdromReadsTheIdentifier : Obligations.RdromReadsTheIdentifier := by
  intro s hb ha
  obtain ⟨buf, hreads, hbody⟩ := rdromBody_eq (s.accept .rdrom .host)
  refine ⟨buf, hreads, ?_⟩
  have hevents : s.events ||| (if validRom buf then 0x00#8 else 0x20#8) ||| 0x08#8 =
      s.events ||| (if validRom buf then 0x08#8 else 0x28#8) := by
    cases validRom buf <;> simp [BitVec.or_assoc]
  rw [exec_eq_hostCommand, hostCommand_idle .rdrom _ s hb (fun _ => ha), commandBody, hbody,
    State.finish_host, State.ended, ← hevents]
  rfl

/-! ### The routines of POLL (R185 to R188) -/

/-- `Removed()` (R185). -/
theorem State.removed_eq (s : State) :
    s.removed = { s with
      status := { s.status with
        session := false, idv := s.status.idv && !(s.status.session && s.ctrl.getLsbD 1) }
      events := s.events ||| (if s.status.session then 0x02#8 else 0x00#8) } := by
  cases h : s.status.session with
  | true =>
    have hidv : (if s.rmclr then false else s.status.idv) =
        (s.status.idv && !(true && s.ctrl.getLsbD 1)) := by
      rw [State.rmclr]
      cases s.ctrl.getLsbD 1 <;> simp
    rw [State.removed, if_pos h, ← hidv]
    rfl
  | false =>
    have hidv : (s.status.idv && !(false && s.ctrl.getLsbD 1)) = s.status.idv := by simp
    rw [State.removed, if_neg (by simp [h]), hidv, if_neg Bool.false_ne_true, BitVec.or_zero, ← h]

/-- `Presence()` (R186). -/
theorem State.present_eq (s : State) :
    s.present = { s with
      status := { s.status with session := true }
      events := s.events ||| (if s.status.session then 0x00#8 else 0x01#8) } := by
  by_cases h : s.status.session = true
  · rw [State.present, if_pos h, if_pos h, BitVec.or_zero, ← h]
  · rw [State.present, if_neg h, if_neg h]
    rfl

/-- `Adopt()` (R188). -/
theorem State.adopt_eq (s : State) :
    s.adopt = { s with
      idBuf := s.pbuf
      status := { s.status with idv := true }
      events := s.events ||| (if s.status.idv && s.pbuf == s.idBuf then 0x00#8 else 0x04#8) } := by
  by_cases h : (s.status.idv && s.pbuf == s.idBuf) = true
  · obtain ⟨hidv, hsame⟩ : s.status.idv = true ∧ s.pbuf = s.idBuf := by simpa using h
    rw [State.adopt, if_pos h, if_pos h, BitVec.or_zero, ← hidv]
    exact congrArg (fun buf => { s with idBuf := buf }) hsame.symm
  · rw [State.adopt, if_neg h, if_neg h]
    rfl

/-- What follows `ReadRom(h.PBUF)` (R187, R188). -/
theorem State.pollOutcome_eq (s : State) :
    s.pollOutcome = { s with
      idBuf := if validRom s.pbuf then s.pbuf else s.idBuf
      status := { s.status with idv := s.status.idv || validRom s.pbuf }
      events := s.events |||
        (if validRom s.pbuf then
          (if s.status.idv && s.pbuf == s.idBuf then 0x00#8 else 0x04#8)
        else 0x20#8) } := by
  unfold State.pollOutcome
  cases validRom s.pbuf with
  | true => simp [State.adopt_eq]
  | false => simp [State.raise, Event.mask, Event.code]

/-! ### POLL (R184) -/

/-- What a poll without a presence raises, EV_DONE aside (R185). -/
def absentEvents (session : Bool) : Byte := if session then 0x02#8 else 0x00#8

/-- What a poll with a presence raises, EV_DONE aside: an insertion, and an identifier that is not
CRC-valid or not the recorded one (R186 to R188). -/
def presentEvents (session valid recorded : Bool) : Byte :=
  (if session then 0x00#8 else 0x01#8) |||
    (if valid then (if recorded then 0x00#8 else 0x04#8) else 0x20#8)

theorem pollBody_of_absent {s : State} (h : s.env.sampleAt 0 = true) :
    pollBody s =
      { s.afterLine 1 (resetTrace s.params true) with
        status := { s.status with
          pd := false, arm := false, session := false
          idv := s.status.idv && !(s.status.session && s.ctrl.getLsbD 1) }
        events := s.events ||| absentEvents s.status.session } := by
  rw [pollBody, State.resetPresence_eq, h, State.removed_eq]
  rfl

/-- What POLL leaves when it finds a presence and reads buf (R186 to R188). -/
def State.polled (buf : Ident) (s : State) : State :=
  { s.afterLine 65
      (resetTrace s.params false ++ writeByteTrace s.params 0x33#8 ++
        readsTrace s.params s.env 1 64) with
    pbuf := buf
    idBuf := if validRom buf then buf else s.idBuf
    status := { s.status with
      pd := true, arm := false, session := true, idv := s.status.idv || validRom buf }
    events := s.events |||
      presentEvents s.status.session (validRom buf) (s.status.idv && buf == s.idBuf) }

theorem pollBody_of_present {s : State} (h : s.env.sampleAt 0 = false) :
    ∃ buf : Ident, ReadsIdent s.env 1 buf ∧ pollBody s = s.polled buf := by
  obtain ⟨buf, hreads, hrom⟩ := s.resetPresence.present.readRom_spec .pbuf
  rw [State.present_eq, State.resetPresence_eq, h] at hreads hrom
  refine ⟨buf, fun i hi j hj => ?_, ?_⟩
  · rw [hreads i hi j hj]
    simp [Nat.add_assoc]
  · have hpd : s.resetPresence.status.pd = true := by simp [State.resetPresence_eq, h]
    rw [pollBody]
    rw [if_pos hpd, State.present_eq, State.resetPresence_eq, h, hrom, State.pollOutcome_eq]
    simp [State.romSet, State.polled, presentEvents, BitVec.or_assoc]

/-- POLL run whole from idle (R76, R77, R80). -/
theorem exec_poll {s : State} (hb : s.status.busy = false) :
    exec .poll s = .next ((pollBody (s.accept .poll .host)).finish .poll .host) := by
  rw [exec_eq_hostCommand, hostCommand_idle .poll _ s hb nofun, commandBody]

/-- Settles O46: the poll ends at its presence sample. -/
theorem pollWithoutPresence : Obligations.PollWithoutPresence := by
  intro s hb hpres
  have hevents : s.events ||| absentEvents s.status.session ||| 0x08#8 =
      s.events ||| (if s.status.session then 0x0A#8 else 0x08#8) := by
    cases s.status.session <;> simp [absentEvents, BitVec.or_assoc]
  rw [exec_poll hb, pollBody_of_absent (s := s.accept .poll .host) hpres, State.finish_host,
    State.ended, ← hevents]
  rfl

/-- Settles O47: the poll goes on to read h.PBUF. -/
theorem pollWithPresence : Obligations.PollWithPresence := by
  intro s hb hpres
  obtain ⟨buf, hreads, hbody⟩ := pollBody_of_present (s := s.accept .poll .host) hpres
  refine ⟨buf, hreads, ?_⟩
  have hevents : s.events |||
      presentEvents s.status.session (validRom buf) (s.status.idv && buf == s.idBuf) ||| 0x08#8 =
        s.events ||| (0x08#8 ||| (if s.status.session then 0x00#8 else 0x01#8) |||
        (if validRom buf then
          (if s.status.idv = true ∧ buf = s.idBuf then 0x00#8 else 0x04#8) else 0x20#8)) := by
    simp only [presentEvents, Bool.and_eq_true, beq_iff_eq]
    ac_rfl
  rw [exec_poll hb, hbody, State.finish_host, State.ended, ← hevents]
  rfl

/-! ### The laws of the tracker (R189) -/

theorem presentEvents_bits : ∀ session valid recorded : Bool,
    (presentEvents session valid recorded).getLsbD 0 = !session ∧
      (presentEvents session valid recorded).getLsbD 1 = false ∧
      (presentEvents session valid recorded).getLsbD 2 = (valid && !recorded) ∧
      (presentEvents session valid recorded).getLsbD 5 = !valid := by decide

/-- Settles O48, by the presence sample and, with a presence, by the CRC check: what the poll raises,
bit by bit. -/
theorem pollEventsAreEdges : Obligations.PollEventsAreEdges := by
  intro s hb hev
  refine ⟨_, exec_poll hb, ?_⟩
  cases hpres : s.env.sampleAt 0 with
  | true =>
    rw [pollBody_of_absent (s := s.accept .poll .host) hpres, State.finish_host, State.accept_host]
    cases s.status.session <;> simp [absentEvents, hev]
  | false =>
    obtain ⟨buf, -, hbody⟩ := pollBody_of_present (s := s.accept .poll .host) hpres
    obtain ⟨hinserted, hremoved, hidchg, hcrc⟩ := presentEvents_bits s.status.session (validRom buf)
      (s.status.idv && buf == s.idBuf)
    rw [hbody, State.finish_host, State.polled, State.accept_host, hev, BitVec.zero_or]
    simp only [BitVec.getLsbD_or, hinserted, hremoved, hidchg, hcrc]
    cases hv : validRom buf with
    | true => simpa using fun hne : ¬ buf = s.idBuf => ⟨Or.inr hne, hv⟩
    | false => simp

/-! ### The poll the autopoll starts (R190) -/

theorem ReadsIdent.unique {e : Env} {k : Nat} {x y : Ident} (hx : ReadsIdent e k x)
    (hy : ReadsIdent e k y) : x = y :=
  Vector.ext fun i hi => BitVec.eq_of_getLsbD_eq fun j hj =>
    (hx i hi j hj).trans (hy i hi j hj).symm

/-- Neither CMD nor the sequencer's position is an operand of POLL (R184). -/
theorem pollBody_withCmdSeq (s : State) (c : Byte) (q : Seq) :
    pollBody { s with cmd := c, seq := q } = { pollBody s with cmd := c, seq := q } := by
  cases hpres : s.env.sampleAt 0 with
  | true =>
    rw [pollBody_of_absent hpres, pollBody_of_absent (s := { s with cmd := c, seq := q }) hpres]
  | false =>
    obtain ⟨buf, hreads, hbody⟩ := pollBody_of_present hpres
    obtain ⟨buf', hreads', hbody'⟩ :=
      pollBody_of_present (s := { s with cmd := c, seq := q }) hpres
    obtain rfl := hreads.unique hreads'
    rw [hbody, hbody']
    rfl

/-- EV_DONE is not for POLL's pseudocode to raise (R184, R80). -/
theorem pollBody_keeps_done (s : State) :
    (pollBody s).events &&& 0x08#8 = s.events &&& 0x08#8 := by
  have hor : ∀ raised : Byte, raised &&& 0x08#8 = 0x00#8 →
      (s.events ||| raised) &&& 0x08#8 = s.events &&& 0x08#8 := fun raised h => by
    rw [BitVec.and_or_distrib_right, h, BitVec.or_zero]
  cases hpres : s.env.sampleAt 0 with
  | true =>
    have hno : ∀ session : Bool, absentEvents session &&& 0x08#8 = 0x00#8 := by decide
    rw [pollBody_of_absent hpres]
    exact hor _ (hno _)
  | false =>
    have hno : ∀ session valid recorded : Bool,
        presentEvents session valid recorded &&& 0x08#8 = 0x00#8 := by decide
    obtain ⟨buf, -, hbody⟩ := pollBody_of_present hpres
    rw [hbody]
    exact hor _ (hno _ _ _)

/-- Settles O16: the two polls start from states that differ in CMD and in who started them, and only
the host's end raises EV_DONE. -/
theorem autopollRunIsAPollWithoutDone : Obligations.AutopollRunIsAPollWithoutDone := by
  intro s hb
  obtain ⟨n, hn⟩ := reaches_commandBody .poll .auto (s.accept .poll .auto)
  have hrun : (s.accept .poll .auto).seqSteps n =
      (pollBody (s.accept .poll .auto)).finish .poll .auto := hn
  have hbody : pollBody (s.accept .poll .auto) =
      { pollBody (s.accept .poll .host) with
        cmd := s.cmd, seq := (s.accept .poll .auto).seq } :=
    pollBody_withCmdSeq (s.accept .poll .host) s.cmd (s.accept .poll .auto).seq
  have hdone := pollBody_keeps_done (s.accept .poll .host)
  refine ⟨n, _, exec_poll hb, ?_⟩
  rw [hrun, State.finish_auto, State.finish_host, hbody]
  exact ⟨rfl, rfl, hdone⟩

theorem State.seqStep_of_due {s : State} (h : s.seq = .idle) (hdue : s.autopollDue = true) :
    s.seqStep = s.accept .poll .auto := by
  simp only [State.seqStep, h, hdue, if_true]

theorem State.seqStep_of_not_due {s : State} (h : s.seq = .idle) (hdue : ¬ s.autopollDue = true) :
    s.seqStep = s := by
  simp only [State.seqStep, h, hdue]
  rfl

theorem State.autopollDue_iff (s : State) :
    s.autopollDue = true ↔ s.ctrl.getLsbD 0 = true ∧ s.params.tPoll ≤ s.apt := by
  rw [State.autopollDue, Bool.and_eq_true, decide_eq_true_eq, State.autopoll]

/-- Settles O17: the two clauses are the start that is due and the one that is not. -/
theorem autopollStartsExactlyWhenDue : Obligations.AutopollStartsExactlyWhenDue := by
  intro s hidle hin
  rw [step_of_no_input hin]
  refine ⟨fun hauto hapt => ?due, fun hno => ?notDue⟩
  case due =>
    rw [State.seqStep_of_due hidle (s.autopollDue_iff.mpr ⟨hauto, hapt⟩)]
    rfl
  case notDue =>
    have hnot : ¬ s.autopollDue = true := by
      rw [State.autopollDue_iff]
      rintro ⟨hauto, hapt⟩
      rcases hno with hoff | hearly
      · exact Bool.false_ne_true (hoff.symm.trans hauto)
      · exact absurd hapt (Nat.not_le_of_lt hearly)
    rw [State.seqStep_of_not_due hidle hnot]

end Sys2Proof.Machine
end

section
/-!
PROOFS. Who writes SESSION, IDV and ID (spec/44_presence.md R180): no routine but those of POLL does,
in either grain. One frame lemma for each operation, in the order of the definitions; what a search
writes is `SearchFrame`.
-/

namespace Sys2Proof.Machine

/-- What the presence & identity tracker holds: SESSION, IDV and ID (R180). -/
def State.tracked (s : State) : Bool × Bool × Ident := (s.status.session, s.status.idv, s.idBuf)

theorem ne_tracked_of_changed {s t : State}
    (h : t.status.session ≠ s.status.session ∨ t.status.idv ≠ s.status.idv ∨ t.idBuf ≠ s.idBuf) :
    t.tracked ≠ s.tracked := by
  intro heq
  obtain ⟨hsession, hrest⟩ := Prod.mk.inj heq
  obtain ⟨hidv, hid⟩ := Prod.mk.inj hrest
  exact h.elim (· hsession) (·.elim (· hidv) (· hid))

/-! ### Routines of the other commands -/

theorem State.raiseIf_tracked (c : Bool) (e : Event) (s : State) :
    (s.raiseIf c e).tracked = s.tracked := by cases c <;> rfl

theorem State.finish_tracked (op : Instr) (o : Origin) (s : State) :
    (s.finish op o).tracked = s.tracked := by cases o <;> rfl

theorem State.perform_tracked (p : Prim) (s : State) : (s.perform p).1.tracked = s.tracked := by
  cases p <;> rfl

theorem State.romPut_tracked (b : RomTarget) (i : Nat) (v : Byte) (s : State) :
    (s.romPut b i v).tracked = s.tracked := by cases b <;> rfl

theorem State.resetOutcome_tracked (s : State) : s.resetOutcome.tracked = s.tracked := by
  unfold State.resetOutcome
  split <;> rfl

theorem State.rdromOutcome_tracked (s : State) : s.rdromOutcome.tracked = s.tracked := by
  rw [State.rdromOutcome_eq]
  rfl

theorem State.takeBranch_tracked (n : Nat) (a b : Bool) (s : State) :
    (s.takeBranch n a b).1.tracked = s.tracked := by
  unfold State.takeBranch
  split
  · rfl
  · split <;> rfl

theorem State.insertRom_tracked (s : State) : s.insertRom.tracked = s.tracked := by
  unfold State.insertRom
  split <;> rfl

theorem State.reportCrc_tracked (r : PassResult) (s : State) :
    (s.reportCrc r).tracked = s.tracked := State.raiseIf_tracked _ _ s

/-! ### The other commands run whole -/

theorem State.searchPass_tracked (s : State) : s.searchPass.1.tracked = s.tracked := by
  obtain ⟨hframe, -⟩ := s.searchPass_leaves.frame
  rw [hframe]
  rfl

theorem State.onePass_tracked (s : State) : s.onePass.tracked = s.tracked :=
  (State.reportCrc_tracked _ _).trans s.searchPass_tracked

theorem enumLoop_tracked (k : Nat) (s : State) : (enumLoop k s).tracked = s.tracked := by
  induction k generalizing s with
  | zero => rfl
  | succ k ih =>
    have hpass : s.nextPass.1.tracked = s.tracked := State.searchPass_tracked _
    by_cases hstop : s.enumStops = true
    · rw [enumLoop_of_stops hstop]
    · rw [enumLoop_of_pass hstop]
      split
      · rw [ih, State.insertRom_tracked, hpass]
      · exact hpass

theorem commandBody_tracked {i : Instr} (hi : i ≠ .poll) (s : State) :
    (commandBody i s).tracked = s.tracked := by
  cases i with
  | reset => rw [commandBody, resetBody_eq]; rfl
  | wbit => rw [commandBody, wbitBody_eq]; rfl
  | rbit => rw [commandBody, rbitBody_eq]; rfl
  | wbyte => rw [commandBody, wbyteBody_eq]; rfl
  | rbyte => rw [commandBody, rbyteBody_eq]; rfl
  | crcb => rfl
  | rdrom =>
    obtain ⟨buf, -, hbody⟩ := rdromBody_eq s
    rw [commandBody, hbody]
    rfl
  | srchf => exact s.clearSearch.onePass_tracked
  | srchn =>
    rw [commandBody, srchnBody]
    split
    · rfl
    · exact s.onePass_tracked
  | enum | enumc => exact enumLoop_tracked _ _
  | poll => exact absurd rfl hi

theorem exec_tracked {i : Instr} (hi : i ≠ .poll) {s t : State} (ht : exec i s = .next t) :
    t.tracked = s.tracked := by
  rw [exec_eq_hostCommand] at ht
  cases ht
  unfold hostCommand
  split
  · rfl
  · split
    · exact (State.finish_tracked _ _ _).trans (commandBody_tracked hi _)
    · rfl

/-! ### Steps of a sequencer that does not run POLL -/

section OtherCommand

variable {op : Instr} (hop : op ≠ .poll)

theorem State.beginCommand_tracked (o : Origin) (s : State) :
    (s.beginCommand op o).tracked = s.tracked := by
  cases op with
  | srchn =>
    rw [State.beginCommand]
    split <;> rfl
  | _ => rfl

theorem State.afterPair_tracked (o : Origin) (n : Nat) (a b : Bool) (s : State) :
    (s.afterPair op o n a b).tracked = s.tracked := by
  unfold State.afterPair
  split
  · rfl
  · exact s.takeBranch_tracked n a b

theorem State.afterPass_tracked (o : Origin) (r : PassResult) (s : State) :
    (s.afterPass op o r).tracked = s.tracked := by
  unfold State.afterPass
  split
  · split
    · exact s.insertRom_tracked
    · rfl
  · exact s.reportCrc_tracked r

theorem State.enumHead_tracked (o : Origin) (s : State) :
    (s.enumHead op o).tracked = s.tracked := by
  unfold State.enumHead
  split <;> rfl

include hop

theorem State.afterPresence_tracked (o : Origin) (s : State) :
    (s.afterPresence op o).tracked = s.tracked := by
  cases op with
  | reset => exact s.resetOutcome_tracked
  | srchf | srchn | enum | enumc =>
    rw [State.afterPresence]
    split <;> rfl
  | poll => exact absurd rfl hop
  | wbit | rbit | wbyte | rbyte | crcb | rdrom => rfl

theorem State.afterRom_tracked (o : Origin) (s : State) :
    (s.afterRom op o).tracked = s.tracked := by
  rw [State.afterRom, if_neg hop]
  exact s.rdromOutcome_tracked

theorem State.resume_tracked (o : Origin) (got : List Bool) (pt : Point) (s : State) :
    (s.resume op o got pt).tracked = s.tracked := by
  cases pt with
  | start => exact s.beginCommand_tracked o
  | presence | bitRead | byteRead | searchSent => rfl
  | presenceKnown => exact s.afterPresence_tracked hop o
  | romByte i =>
    rw [State.resume]
    split <;> exact s.romPut_tracked _ _ _
  | romDone => exact s.afterRom_tracked hop o
  | pair n => exact s.afterPair_tracked o n _ _
  | written n =>
    rw [State.resume]
    split <;> rfl
  | passDone r => exact s.afterPass_tracked o r
  | enumHead => exact s.enumHead_tracked o
  | finish => exact s.finish_tracked op o

end OtherCommand

theorem State.seqStep_tracked {s : State} (h : ∀ o pos, s.seq ≠ .run .poll o pos) :
    s.seqStep.tracked = s.tracked := by
  unfold State.seqStep
  split
  · split <;> rfl
  · rename_i op o pos hs
    have hop : op ≠ .poll := by
      rintro rfl
      exact h o pos hs
    split
    · exact s.resume_tracked hop o _ _
    · exact s.perform_tracked _

theorem exists_run_of_seqStep_tracked_ne {s : State} (hne : s.seqStep.tracked ≠ s.tracked) :
    ∃ o pos, s.seq = .run .poll o pos := by
  by_contra hno
  exact hne (State.seqStep_tracked fun o pos hs => hno ⟨o, pos, hs⟩)

/-! ### The host's side (R51) -/

theorem State.dispatch_tracked (v : Byte) (s : State) : (s.dispatch v).tracked = s.tracked := by
  unfold State.dispatch
  split
  · rfl
  · split
    · rfl
    · split <;> rfl

theorem State.memRead_tracked (a : Addr) (s : State) : (s.memRead a).2.tracked = s.tracked := by
  unfold State.memRead
  dsimp only
  split <;> rfl

/-- ID's addresses are read-only to the host (R52). -/
theorem State.memWrite_tracked (r : Reg) (v : Byte) (s : State) :
    (s.memWrite r v).tracked = s.tracked := by
  cases r with
  | cmd => exact s.dispatch_tracked v
  | data => rw [State.memWrite_data]; rfl
  | crc => rw [State.memWrite_crc]; rfl
  | _ => rfl

theorem State.hostAccess_tracked {acc : HostAccess} {s t : State}
    (ht : s.hostAccess acc = .next t) : t.tracked = s.tracked := by
  cases acc with
  | read a width =>
    rw [State.hostAccess] at ht
    split at ht
    · cases ht
      exact s.memRead_tracked a
    · cases ht
  | write a width v =>
    rw [State.hostAccess] at ht
    split at ht
    · cases ht
      exact s.memWrite_tracked _ v
    · cases ht

/-- The only command value that changes what the tracker holds is POLL's opcode. -/
theorem eq_opcode_of_command_tracked_ne {v : Byte} {s t : State} (ht : s.command v = .next t)
    (hne : t.tracked ≠ s.tracked) : v = 0x20#8 := by
  rcases decodeOpcode_illegal_or_ok v with hv | ⟨i, hv, hi⟩
  · rw [State.command_of_illegal s hv] at ht
    cases ht
    exact absurd rfl hne
  · rw [State.command_of_opcode s hv] at ht
    obtain rfl : i = .poll := Decidable.not_not.mp fun h => hne (exec_tracked h ht)
    exact hi.symm

/-- Settles O49, by what the step takes: no input (the sequencer moves) or the next input. -/
theorem onlyPollWritesTheSession : Obligations.OnlyPollWritesTheSession := by
  intro s t ht hchanged
  have hne := ne_tracked_of_changed hchanged
  match hin : s.env.inputs with
  | [] =>
    cases (step_of_no_input hin).symm.trans ht
    exact .inr (.inr ⟨.inl rfl, exists_run_of_seqStep_tracked_ne hne⟩)
  | inp :: rest =>
    rw [step_of_input hin] at ht
    cases inp with
    | seq =>
      cases ht
      exact .inr (.inr ⟨.inr ⟨rest, rfl⟩,
        exists_run_of_seqStep_tracked_ne (s := s.withInputs rest) hne⟩)
    | access acc => exact absurd (State.hostAccess_tracked ht) hne
    | host w =>
      obtain ⟨acc, -, hacc⟩ := exists_decode_of_hostWord ht
      exact absurd (State.hostAccess_tracked hacc) hne
    | command v =>
      obtain rfl := eq_opcode_of_command_tracked_ne ht hne
      exact .inl ⟨rest, rfl⟩
    | rst => exact .inr (.inl ⟨rest, rfl⟩)
    | elapse us =>
      cases ht
      exact absurd rfl hne

end Sys2Proof.Machine
end

section
/-!
PROOFS. The events and the interrupt output (spec/60_exceptions.md R200 to R206): EVENTS and IE bit
by bit, and who clears an event. No routine clears one: of all that a step can be, every form but a
host write of EVENTS and block reset only raises events (`RaisesOnly`). One lemma for each
operation, in the order of the definitions.
-/

namespace Sys2Proof.Machine

/-! ### EVENTS bit by bit (R200, R201) -/

theorem Event.code_lt (e : Event) : e.code < 8 := by cases e <;> decide

theorem Event.getLsbD_mask (e : Event) (i : Nat) : e.mask.getLsbD i = decide (i = e.code) := by
  rw [Event.mask, ← BitVec.twoPow_eq, BitVec.getLsbD_twoPow, decide_eq_true e.code_lt,
    Bool.true_and]
  exact decide_eq_decide.mpr eq_comm

theorem State.raise_getLsbD (e : Event) (s : State) (i : Nat) :
    (s.raise e).events.getLsbD i = (s.events.getLsbD i || decide (i = e.code)) := by
  rw [State.raise_events, BitVec.getLsbD_or, e.getLsbD_mask]

/-- A host write of EVENTS is a write-1-to-clear (R51, R201). -/
theorem State.memWrite_events_getLsbD (v : Byte) (s : State) {i : Nat} (hi : i < 8) :
    (s.memWrite .events v).events.getLsbD i = (s.events.getLsbD i && !v.getLsbD i) := by
  have hwrite : (s.memWrite .events v).events = s.events &&& ~~~v := rfl
  rw [hwrite, BitVec.getLsbD_and, BitVec.getLsbD_not, decide_eq_true hi, Bool.true_and]

/-- Settles O51: each bit of EVENTS after a raise, after a host write, after a raise that
follows the write. -/
theorem raisingAndClearingEvents : Obligations.RaisingAndClearingEvents := by
  intro s e v i hi
  refine ⟨s.raise_getLsbD e i, s.memWrite_events_getLsbD v hi, ?_⟩
  rw [State.raise_getLsbD, decide_eq_true rfl, Bool.or_true]

/-! ### The interrupt output (R205) -/

theorem byte_ne_zero_iff (v : Byte) : v ≠ 0x00#8 ↔ ∃ i < 8, v.getLsbD i = true := by
  rw [Ne, BitVec.eq_of_getLsbD_eq_iff]
  simp only [BitVec.getLsbD_zero, not_forall, exists_prop, Bool.not_eq_false]

theorem State.irq_iff (s : State) :
    s.irq = true ↔ ∃ i < 8, s.events.getLsbD i = true ∧ s.ie.getLsbD i = true := by
  rw [State.irq, bne_iff_ne, byte_ne_zero_iff]
  simp only [BitVec.getLsbD_and, Bool.and_eq_true]

/-- Settles O50: the bits of EVENTS & IE, and at reset EVENTS = 0. -/
theorem irqIsAnEnabledEvent : Obligations.IrqIsAnEnabledEvent := ⟨State.irq_iff, by decide⟩

/-! ### Routines only raise events (R201) -/

/-- From s to t EVENTS has at most gained bits. -/
def RaisesOnly (s t : State) : Prop := ∃ raised : Byte, t.events = s.events ||| raised

theorem RaisesOnly.of_eq {s t : State} (h : t.events = s.events) : RaisesOnly s t :=
  ⟨0x00#8, h.trans BitVec.or_zero.symm⟩

theorem RaisesOnly.trans {s t u : State} (h : RaisesOnly s t) (h' : RaisesOnly t u) :
    RaisesOnly s u := by
  obtain ⟨x, hx⟩ := h
  obtain ⟨y, hy⟩ := h'
  exact ⟨x ||| y, by rw [hy, hx, BitVec.or_assoc]⟩

theorem RaisesOnly.getLsbD {s t : State} {i : Nat} (h : RaisesOnly s t)
    (hi : s.events.getLsbD i = true) : t.events.getLsbD i = true := by
  obtain ⟨x, hx⟩ := h
  rw [hx, BitVec.getLsbD_or, hi, Bool.true_or]

theorem State.raise_raisesOnly (e : Event) (s : State) : RaisesOnly s (s.raise e) := ⟨e.mask, rfl⟩

theorem State.raiseIf_raisesOnly (c : Bool) (e : Event) (s : State) :
    RaisesOnly s (s.raiseIf c e) := by
  cases c with
  | true => exact s.raise_raisesOnly e
  | false => exact .of_eq rfl

theorem State.finish_raisesOnly (op : Instr) (o : Origin) (s : State) :
    RaisesOnly s (s.finish op o) := State.raiseIf_raisesOnly _ _ _

theorem State.dispatch_raisesOnly (v : Byte) (s : State) : RaisesOnly s (s.dispatch v) := by
  have hreject : RaisesOnly s s.reject := s.raise_raisesOnly .errCmd
  unfold State.dispatch
  split
  · exact hreject
  · split
    · exact hreject
    · split
      · exact .of_eq rfl
      · exact hreject

theorem State.perform_raisesOnly (p : Prim) (s : State) : RaisesOnly s (s.perform p).1 :=
  .of_eq (by rw [State.perform_eq])

theorem State.romPut_raisesOnly (b : RomTarget) (i : Nat) (v : Byte) (s : State) :
    RaisesOnly s (s.romPut b i v) := by cases b <;> exact .of_eq rfl

theorem State.resetOutcome_raisesOnly (s : State) : RaisesOnly s s.resetOutcome := by
  unfold State.resetOutcome
  split
  · exact .of_eq rfl
  · exact s.raise_raisesOnly .errNopres

theorem State.rdromOutcome_raisesOnly (s : State) : RaisesOnly s s.rdromOutcome :=
  ⟨_, congrArg State.events s.rdromOutcome_eq⟩

theorem State.removed_raisesOnly (s : State) : RaisesOnly s s.removed :=
  ⟨_, congrArg State.events s.removed_eq⟩

theorem State.present_raisesOnly (s : State) : RaisesOnly s s.present :=
  ⟨_, congrArg State.events s.present_eq⟩

theorem State.pollOutcome_raisesOnly (s : State) : RaisesOnly s s.pollOutcome :=
  ⟨_, congrArg State.events s.pollOutcome_eq⟩

theorem State.abortConflict_raisesOnly (s : State) : RaisesOnly s s.abortConflict :=
  s.abortPass.raise_raisesOnly .errSrch

theorem State.takeBranch_raisesOnly (n : Nat) (a b : Bool) (s : State) :
    RaisesOnly s (s.takeBranch n a b).1 := by
  unfold State.takeBranch
  split
  · exact .of_eq rfl
  · split <;> exact .of_eq rfl

theorem State.insertRom_raisesOnly (s : State) : RaisesOnly s s.insertRom := by
  unfold State.insertRom
  split
  · exact .of_eq rfl
  · exact s.raise_raisesOnly .errCrc

/-! ### The sequencer only raises events -/

theorem State.beginCommand_raisesOnly (op : Instr) (o : Origin) (s : State) :
    RaisesOnly s (s.beginCommand op o) := by
  cases op with
  | srchn =>
    rw [State.beginCommand]
    split <;> exact .of_eq rfl
  | _ => exact .of_eq rfl

theorem State.afterPresence_raisesOnly (op : Instr) (o : Origin) (s : State) :
    RaisesOnly s (s.afterPresence op o) := by
  cases op with
  | reset => exact s.resetOutcome_raisesOnly
  | srchf | srchn | enum | enumc =>
    rw [State.afterPresence]
    split <;> exact .of_eq rfl
  | poll =>
    rw [State.afterPresence]
    split
    · exact s.present_raisesOnly
    · exact s.removed_raisesOnly
  | wbit | rbit | wbyte | rbyte | crcb | rdrom => exact .of_eq rfl

theorem State.afterRom_raisesOnly (op : Instr) (o : Origin) (s : State) :
    RaisesOnly s (s.afterRom op o) := by
  unfold State.afterRom
  split
  · exact s.pollOutcome_raisesOnly
  · exact s.rdromOutcome_raisesOnly

theorem State.afterPair_raisesOnly (op : Instr) (o : Origin) (n : Nat) (a b : Bool) (s : State) :
    RaisesOnly s (s.afterPair op o n a b) := by
  unfold State.afterPair
  split
  · exact s.abortConflict_raisesOnly
  · exact s.takeBranch_raisesOnly n a b

theorem State.afterPass_raisesOnly (op : Instr) (o : Origin) (r : PassResult) (s : State) :
    RaisesOnly s (s.afterPass op o r) := by
  unfold State.afterPass
  split
  · split
    · exact s.insertRom_raisesOnly
    · exact .of_eq rfl
  · exact s.raiseIf_raisesOnly _ .errCrc

theorem State.enumHead_raisesOnly (op : Instr) (o : Origin) (s : State) :
    RaisesOnly s (s.enumHead op o) := by
  unfold State.enumHead
  split <;> exact .of_eq rfl

theorem State.resume_raisesOnly (op : Instr) (o : Origin) (got : List Bool) (pt : Point)
    (s : State) : RaisesOnly s (s.resume op o got pt) := by
  cases pt with
  | start => exact s.beginCommand_raisesOnly op o
  | presence | bitRead | byteRead | searchSent => exact .of_eq rfl
  | presenceKnown => exact s.afterPresence_raisesOnly op o
  | romByte i =>
    rw [State.resume]
    split <;> exact s.romPut_raisesOnly _ _ _
  | romDone => exact s.afterRom_raisesOnly op o
  | pair n => exact s.afterPair_raisesOnly op o n _ _
  | written n =>
    rw [State.resume]
    split <;> exact .of_eq rfl
  | passDone r => exact s.afterPass_raisesOnly op o r
  | enumHead => exact s.enumHead_raisesOnly op o
  | finish => exact s.finish_raisesOnly op o

theorem State.seqStep_raisesOnly (s : State) : RaisesOnly s s.seqStep := by
  unfold State.seqStep
  split
  · split <;> exact .of_eq rfl
  · split
    · exact s.resume_raisesOnly _ _ _ _
    · exact s.perform_raisesOnly _

theorem State.seqSteps_raisesOnly (n : Nat) (s : State) : RaisesOnly s (s.seqSteps n) := by
  induction n generalizing s with
  | zero => exact .of_eq rfl
  | succ n ih => exact s.seqStep_raisesOnly.trans (ih s.seqStep)

/-! ### Commands run whole only raise events -/

/-- A command run whole is its acceptance and a run of sequencer steps (R81). -/
theorem exec_raisesOnly {i : Instr} {s t : State} (ht : exec i s = .next t) : RaisesOnly s t := by
  rw [exec_eq_hostCommand] at ht
  cases ht
  have hreject : RaisesOnly s s.reject := s.raise_raisesOnly .errCmd
  unfold hostCommand
  split
  · exact hreject
  · split
    · obtain ⟨n, hn⟩ := reaches_commandBody i .host (s.accept i .host)
      rw [← hn]
      exact State.seqSteps_raisesOnly n ((s.accept i .host).goto i .host [] .start)
    · exact hreject

theorem State.command_raisesOnly {v : Byte} {s t : State} (ht : s.command v = .next t) :
    RaisesOnly s t := by
  rcases decodeOpcode_illegal_or_ok v with hv | ⟨i, hv, -⟩
  · rw [State.command_of_illegal s hv] at ht
    cases ht
    exact s.raise_raisesOnly .errCmd
  · rw [State.command_of_opcode s hv] at ht
    exact exec_raisesOnly ht

/-! ### Only a host write of EVENTS or block reset clears an event (R201) -/

theorem eq_of_addrReg_events {a : Addr} (h : addrReg a = .events) : a = 0x02#6 := by
  have hname : addrReg a ≠ .reserved := by rw [h]; nofun
  rw [← regAddr_addrReg a hname, h, regAddr]

theorem State.memRead_raisesOnly (a : Addr) (s : State) : RaisesOnly s (s.memRead a).2 := by
  unfold State.memRead
  dsimp only
  split <;> exact .of_eq rfl

theorem State.memWrite_raisesOnly {r : Reg} (v : Byte) (s : State) (hr : r ≠ .events) :
    RaisesOnly s (s.memWrite r v) := by
  cases r with
  | cmd => exact s.dispatch_raisesOnly v
  | events => exact absurd rfl hr
  | data => exact .of_eq (by rw [State.memWrite_data])
  | crc => exact .of_eq (by rw [State.memWrite_crc])
  | _ => exact .of_eq rfl

section ClearedBit

variable {s t : State} {i : Nat} (hset : s.events.getLsbD i = true)
  (hclear : t.events.getLsbD i = false)
include hset hclear

theorem not_raisesOnly_of_cleared : ¬ RaisesOnly s t := fun h =>
  Bool.false_ne_true (hclear.symm.trans (h.getLsbD hset))

/-- The only access that clears an event is a write of 1 to its bit of EVENTS. -/
theorem eq_write_of_hostAccess_cleared {acc : HostAccess} (ht : s.hostAccess acc = .next t) :
    ∃ v : Byte, acc = .write 0x02#6 1 v ∧ v.getLsbD i = true := by
  have hnot := not_raisesOnly_of_cleared hset hclear
  cases acc with
  | read a width =>
    rw [State.hostAccess] at ht
    split at ht
    · cases ht
      exact absurd (s.memRead_raisesOnly a) hnot
    · cases ht
  | write a width v =>
    rw [State.hostAccess] at ht
    split at ht
    · rename_i hwidth
      cases ht
      have hreg : addrReg a = .events := Decidable.not_not.mp (mt (s.memWrite_raisesOnly v) hnot)
      rw [hreg, State.memWrite_events_getLsbD v s (BitVec.lt_of_getLsbD hset), hset,
        Bool.true_and, Bool.not_eq_false'] at hclear
      exact ⟨v, by rw [eq_of_addrReg_events hreg, hwidth], hclear⟩
    · cases ht

end ClearedBit

/-- Settles O52, by what the step takes: no input (the sequencer moves) or the next input. -/
theorem eventsStayUntilCleared : Obligations.EventsStayUntilCleared := by
  intro s t i ht hset hclear
  have hnot := not_raisesOnly_of_cleared hset hclear
  match hin : s.env.inputs with
  | [] =>
    cases (step_of_no_input hin).symm.trans ht
    exact absurd s.seqStep_raisesOnly hnot
  | inp :: rest =>
    rw [step_of_input hin] at ht
    cases inp with
    | seq =>
      cases ht
      exact absurd (s.withInputs rest).seqStep_raisesOnly hnot
    | access acc =>
      obtain ⟨v, rfl, hv⟩ :=
        eq_write_of_hostAccess_cleared (s := s.withInputs rest) hset hclear ht
      exact .inl ⟨v, rest, rfl, hv⟩
    | host w =>
      obtain ⟨acc, hw, hacc⟩ := exists_decode_of_hostWord ht
      obtain ⟨v, rfl, hv⟩ :=
        eq_write_of_hostAccess_cleared (s := s.withInputs rest) hset hclear hacc
      exact .inr (.inl ⟨w, v, rest, rfl, hw, hv⟩)
    | command v => exact absurd (State.command_raisesOnly ht) hnot
    | rst => exact .inr (.inr ⟨rest, rfl⟩)
    | elapse us =>
      cases ht
      exact absurd (.of_eq rfl) hnot

end Sys2Proof.Machine
end

section
/-!
PROOFS. Block reset (spec/70_reset_and_hazards.md R230, R231) and nominal line times (R241): of each
line form at R7's durations, of each command from its next state, of an enumeration pass by pass.
-/

namespace Sys2Proof.Machine

/-- Settles O11: the step of the input RST is `State.blockReset`. -/
theorem blockResetReplacesEveryValue : Obligations.BlockResetReplacesEveryValue :=
  fun _ _ hin => step_of_input hin

/-! ### Nominal time of the line forms at R7's durations (R107, R129, R241) -/

theorem traceTime_resetTrace (b : Bool) : traceTime (resetTrace Config.standard b) = 960 := by
  cases b <;> rfl

theorem traceTime_readTrace (b : Bool) : traceTime (readTrace Config.standard b) = 70 := rfl

theorem traceTime_writeByteTrace (v : Byte) :
    traceTime (writeByteTrace Config.standard v) = 560 :=
  traceTime_flatMap (fun _ => traceTime_writeTrace _) _

theorem traceTime_readsTrace (e : Env) (k n : Nat) :
    traceTime (readsTrace Config.standard e k n) = n * 70 := by
  rw [readsTrace, traceTime_flatMap fun _ => traceTime_readTrace _, List.length_range]

/-- Reset and presence, the search command byte, and three slots for each completed position. -/
theorem traceTime_passTrace_first (e : Env) (k : Nat) (prev : Ident) (ld m : Nat) :
    traceTime (passTrace Config.standard e k prev ld m) = 960 + 560 + m * 210 := by
  have hposition (n : Nat) : traceTime (positionTrace Config.standard e k prev ld n) = 210 := by
    rw [positionTrace, traceTime_append, traceTime_append, traceTime_readTrace,
      traceTime_readTrace, traceTime_writeTrace]
  rw [passTrace, traceTime_append, traceTime_append, traceTime_resetTrace,
    traceTime_writeByteTrace, traceTime_flatMap fun i => hposition (i + 1), List.length_range]

/-- A pass aborted at position m reads its two bits and writes none (R157). -/
theorem traceTime_conflict (e : Env) (k : Nat) (prev : Ident) (ld m : Nat) :
    traceTime (passTrace Config.standard e k prev ld (m - 1) ++ readTrace Config.standard true ++
      readTrace Config.standard true) = 960 + 560 + (m - 1) * 210 + 140 := by
  rw [traceTime_append, traceTime_append, traceTime_passTrace_first, traceTime_readTrace]

/-! ### The commands without a search (R241) -/

/-- A command's line time is that of the phases it adds to the trace. -/
theorem takesLineTime_of_trace {i : Instr} {s t : State} {ps : List Phase} {n : Nat}
    (hexec : exec i s = .next t) (htrace : t.env.trace = s.env.trace ++ ps)
    (hn : traceTime ps = n) : TakesLineTime i s n :=
  ⟨t, hexec, by rw [htrace, traceTime_append, hn]⟩

/-- A command that leaves the environment alone takes no line time. -/
theorem takesLineTime_of_env_eq {i : Instr} {s t : State} (hexec : exec i s = .next t)
    (henv : t.env = s.env) : TakesLineTime i s 0 :=
  ⟨t, hexec, by rw [henv, Nat.add_zero]⟩

/-- SRCHF begins at LD = 0, SRCHN at the LD it finds (R151, R159). -/
theorem exists_searchStart_ld {i : Instr} {s : State}
    (hi : i = .srchf ∨ (i = .srchn ∧ s.status.lastdev = false)) :
    ∃ ld : Nat, (i = .srchf ∧ ld = 0) ∨
      (i = .srchn ∧ s.status.lastdev = false ∧ ld = s.ld.toNat) := by
  rcases hi with hf | ⟨hn, hl⟩
  · exact ⟨0, .inl ⟨hf, rfl⟩⟩
  · exact ⟨s.ld.toNat, .inr ⟨hn, hl, rfl⟩⟩

section AtR7

variable {s : State} (hb : s.status.busy = false) (hp : s.params = Config.standard)
include hb hp

theorem takesLineTime_reset : TakesLineTime .reset s 960 :=
  takesLineTime_of_trace (resetDetectsPresence s hb) rfl (by rw [hp, traceTime_resetTrace])

theorem takesLineTime_wbit : TakesLineTime .wbit s 70 :=
  takesLineTime_of_trace (wbitWritesOneSlot s hb) rfl (by rw [hp, traceTime_writeTrace])

theorem takesLineTime_rbit : TakesLineTime .rbit s 70 :=
  takesLineTime_of_trace (rbitReadsOneSlot s hb) rfl (by rw [hp, traceTime_readTrace])

theorem takesLineTime_wbyte : TakesLineTime .wbyte s 560 :=
  takesLineTime_of_trace (wbyteWritesEightSlots s hb) rfl
    (by rw [← writeByteTrace_eq, hp, traceTime_writeByteTrace])

theorem takesLineTime_rbyte : TakesLineTime .rbyte s 560 := by
  obtain ⟨v, -, hexec⟩ := rbyteReadsEightSlots s hb
  exact takesLineTime_of_trace hexec rfl (by rw [hp, traceTime_readsTrace])

theorem takesLineTime_rdrom (harm : s.status.arm = true) : TakesLineTime .rdrom s 5040 := by
  obtain ⟨buf, -, hexec⟩ := rdromReadsTheIdentifier s hb harm
  exact takesLineTime_of_trace hexec rfl
    (by rw [hp, traceTime_append, traceTime_writeByteTrace, traceTime_readsTrace])

theorem takesLineTime_poll_of_absent (hpres : s.env.sampleAt 0 = true) :
    TakesLineTime .poll s 960 :=
  takesLineTime_of_trace (pollWithoutPresence s hb hpres) rfl (by rw [hp, traceTime_resetTrace])

theorem takesLineTime_poll_of_present (hpres : s.env.sampleAt 0 = false) :
    TakesLineTime .poll s 6000 := by
  obtain ⟨buf, -, hexec⟩ := pollWithPresence s hb hpres
  exact takesLineTime_of_trace hexec rfl (by
    rw [hp, traceTime_append, traceTime_append, traceTime_resetTrace, traceTime_writeByteTrace,
      traceTime_readsTrace])

/-! ### The passes of SRCHF and SRCHN (R241) -/

/-- Every command that begins a pass takes a reset sequence when there is no presence. -/
theorem takesLineTime_of_noPres {i : Instr}
    (hi : i = .srchf ∨ i = .enum ∨ ((i = .srchn ∨ i = .enumc) ∧ s.status.lastdev = false))
    (hpres : s.env.sampleAt 0 = true) : TakesLineTime i s 960 := by
  have hwf : s.params.wf = true := by rw [hp]; decide
  have hn : traceTime (resetTrace s.params true) = 960 := by rw [hp, traceTime_resetTrace]
  have search (h : i = .srchf ∨ (i = .srchn ∧ s.status.lastdev = false)) :=
    takesLineTime_of_trace (searchWithoutPresence i s h hb hpres) rfl hn
  have enumeration (h : i = .enum ∨ (i = .enumc ∧ s.status.lastdev = false)) :=
    takesLineTime_of_trace (enumerationOfAnEmptyBus i s h hb hwf hpres) rfl hn
  rcases hi with hf | he | ⟨hn | hc, hl⟩
  · exact search (.inl hf)
  · exact enumeration (.inl he)
  · exact search (.inr ⟨hn, hl⟩)
  · exact enumeration (.inr ⟨hc, hl⟩)

theorem takesLineTime_of_answered {i : Instr}
    (hi : i = .srchf ∨ (i = .srchn ∧ s.status.lastdev = false)) (hpres : s.env.sampleAt 0 = false)
    (hanswered : ∀ n, 1 ≤ n → n ≤ 64 →
      ¬ (identityBit s.env 0 n = true ∧ complementBit s.env 0 n = true)) :
    TakesLineTime i s 14960 := by
  obtain ⟨ld, hld⟩ := exists_searchStart_ld hi
  obtain ⟨buf, z, -, -, hexec⟩ := searchPassTakesTheBranches i s ld hld hb hpres hanswered
  exact takesLineTime_of_trace hexec rfl (by rw [hp, traceTime_passTrace])

theorem takesLineTime_of_conflict {i : Instr} {m : Nat}
    (hi : i = .srchf ∨ (i = .srchn ∧ s.status.lastdev = false)) (hpres : s.env.sampleAt 0 = false)
    (h1 : 1 ≤ m) (h64 : m ≤ 64)
    (hbefore : ∀ n, 1 ≤ n → n < m →
      ¬ (identityBit s.env 0 n = true ∧ complementBit s.env 0 n = true))
    (hid : identityBit s.env 0 m = true) (hcomp : complementBit s.env 0 m = true) :
    TakesLineTime i s (960 + 560 + (m - 1) * 210 + 140) := by
  obtain ⟨ld, hld⟩ := exists_searchStart_ld hi
  obtain ⟨buf, z, -, hexec⟩ :=
    searchPassAbortsOnConflict i s ld m hld hb hpres h1 h64 hbefore hid hcomp
  exact takesLineTime_of_trace hexec rfl (by rw [hp, traceTime_conflict])

end AtR7

/-! ### The passes of an enumeration (R163, R241) -/

/-- n is the nominal time of an aborted pass that left t: without presence, or with a conflict at
some position. -/
def AbortTime (t : State) (n : Nat) : Prop :=
  (t.status.pd = false → n = 960) ∧
  (t.status.pd = true → ∃ m, 1 ≤ m ∧ m ≤ 64 ∧ n = 960 + 560 + (m - 1) * 210 + 140)

/-- The time of one pass, by how it ends: without presence, completed, or at its first {1,1}. -/
theorem State.searchPass_time {s : State} (hp : s.params = Config.standard) :
    ∃ n, traceTime s.searchPass.1.env.trace = traceTime s.env.trace + n ∧
      (s.searchPass.2 = .ok → n = 14960) ∧ (s.searchPass.2 ≠ .ok → AbortTime s.searchPass.1 n) := by
  cases hpres : s.env.sampleAt 0 with
  | true =>
    rw [s.searchPass_noPres hpres, hp]
    exact ⟨960, traceTime_append _ _, nofun, fun _ => ⟨fun _ => rfl, nofun⟩⟩
  | false =>
    rcases answered_or_first_conflict s.env 0 with hall | ⟨m, h1, h64, hbefore, hconflict⟩
    · obtain ⟨buf, z, -, -, hpass⟩ := s.searchPass_ok hpres fun n h1 h64 =>
        Bool.eq_false_iff.mpr fun hx => hall n h1 h64 (Bool.and_eq_true_iff.mp hx)
      rw [hpass, hp]
      exact ⟨_, traceTime_append _ _, fun _ => traceTime_passTrace _ _ _, fun h => absurd rfl h⟩
    · obtain ⟨buf, z, -, -, hpass⟩ := s.searchPass_conflict m hpres h1 h64
        (fun n hn hm => Bool.eq_false_iff.mpr fun hx =>
          hbefore n hn hm (Bool.and_eq_true_iff.mp hx)) hconflict
      rw [hpass, hp]
      exact ⟨_, traceTime_append _ _, nofun,
        fun _ => ⟨nofun, fun _ => ⟨m, h1, h64, traceTime_conflict _ _ _ _ _⟩⟩⟩

/-- At the head of the loop that began in s, every pass so far was completed and took 14960 µs. -/
structure TimedPasses (s u : State) : Prop where
  params : u.params = Config.standard
  time : traceTime u.env.trace = traceTime s.env.trace + 14960 * u.passes
  completed : 1 ≤ u.passes → u.status.sok = true

/-- The line time from s to the end t of an enumeration: that of its completed passes, and n for an
aborted one. -/
def EnumTime (s t : State) : Prop :=
  ∃ n, traceTime t.env.trace = traceTime s.env.trace + 14960 * t.completedPasses + n ∧
    (t.status.sok = true ∨ t.passes = 0 → n = 0) ∧
    (t.status.sok = false → 1 ≤ t.passes → AbortTime t n)

/-- When the passes made were all completed, `completedPasses` counts them all. -/
theorem State.completedPasses_of_completed {u : State} (h : 1 ≤ u.passes → u.status.sok = true) :
    u.completedPasses = u.passes := by
  rcases Nat.eq_zero_or_pos u.passes with h0 | hpos
  · rw [State.completedPasses, h0, Nat.zero_sub, ite_self]
  · rw [State.completedPasses, if_pos (h hpos)]

/-- The loop ends at its head. -/
theorem TimedPasses.stop {s u : State} (h : TimedPasses s u) : EnumTime s u := by
  refine ⟨0, ?_, fun _ => rfl, fun hsok h1 => ?_⟩
  · rw [State.completedPasses_of_completed h.completed, h.time, Nat.add_zero]
  · exact absurd (hsok.symm.trans (h.completed h1)) Bool.false_ne_true

/-- A further pass leads to the head of the loop again, or ends the loop when it is aborted. -/
theorem TimedPasses.next {s u : State} (h : TimedPasses s u) :
    if u.nextPass.2 = .ok then TimedPasses s u.nextPass.1.insertRom
    else EnumTime s u.nextPass.1 := by
  obtain ⟨n, htime, hok, haborted⟩ :=
    State.searchPass_time (s := { u with passes := u.passes + 1 }) h.params
  obtain ⟨-, hpasses, hleaves⟩ := u.nextPass_leaves
  replace htime : traceTime u.nextPass.1.env.trace =
      traceTime s.env.trace + 14960 * u.passes + n := htime.trans (congrArg (· + n) h.time)
  split
  case isTrue hpass =>
    obtain rfl := hok hpass
    constructor
    case params => rw [State.insertRom_params]; exact (State.searchPass_params _).trans h.params
    case time => rw [State.insertRom_env, State.insertRom_passes, htime, hpasses]; omega
    case completed =>
      rw [State.insertRom_frame]
      exact fun _ => (hleaves.completed hpass).1
  case isFalse hpass =>
    have hsok := (hleaves.aborted hpass).1
    refine ⟨n, ?_, ?_, fun _ _ => haborted hpass⟩
    · rw [State.completedPasses, hsok, hpasses]
      exact htime
    · rw [hsok, hpasses]
      exact fun hno => hno.elim nofun nofun

theorem enumLoop_time {s : State} (hp : s.params = Config.standard) (h0 : s.passes = 0) :
    EnumTime s (enumLoop (s.params.passLimit + 1) s) :=
  enumLoop_rule (P := TimedPasses s) (fun _ hu _ => hu.stop) (fun _ hu _ => hu.next) _ s
    ⟨hp, by rw [h0]; rfl, by omega⟩ (by omega) (by omega)

theorem exec_enumeration_time {i : Instr} {s : State} (hi : i = .enum ∨ i = .enumc)
    (hb : s.status.busy = false) (hp : s.params = Config.standard) :
    ∃ t, exec i s = .next t ∧ EnumTime s t := by
  rcases hi with rfl | rfl
  · exact ⟨_, exec_enum hb, enumLoop_time (s := s.enumStart .enum 0x00#8 false) hp rfl⟩
  · exact ⟨_, exec_enumc hb,
      enumLoop_time (s := s.enumStart .enumc s.ld s.status.lastdev) hp rfl⟩

/-- Settles O58: the time of each command and of each form of a search pass, and for an enumeration
that of its passes. -/
theorem nominalLineTimeOfEachCommand : Obligations.NominalLineTimeOfEachCommand := by
  intro s hb hp
  refine ⟨takesLineTime_reset hb hp, takesLineTime_wbit hb hp, takesLineTime_rbit hb hp,
    takesLineTime_wbyte hb hp, takesLineTime_rbyte hb hp,
    takesLineTime_of_env_eq (crcbUpdatesTheAccumulator s hb) rfl, takesLineTime_rdrom hb hp,
    takesLineTime_poll_of_absent hb hp, takesLineTime_poll_of_present hb hp,
    fun hl => ⟨?srchn, ?enumc⟩, fun i hi => takesLineTime_of_noPres hb hp hi,
    fun i hi hpres => ⟨?complete, fun m => ?conflict⟩, fun i hi => ?enumeration⟩
  case srchn => exact takesLineTime_of_env_eq (srchnAfterTheLastDeviceDoesNothing s hb hl) rfl
  case enumc => exact takesLineTime_of_env_eq (enumcAfterTheLastDeviceRunsNoPass s hb hl) rfl
  case complete => exact takesLineTime_of_answered hb hp hi hpres
  case conflict => exact takesLineTime_of_conflict hb hp hi hpres
  case enumeration =>
    obtain ⟨t, hexec, n, htime, hdone, haborted⟩ := exec_enumeration_time hi hb hp
    exact ⟨t, n, hexec, htime, hdone, fun hsok h1 => (haborted hsok h1).1,
      fun hsok h1 => (haborted hsok h1).2⟩

end Sys2Proof.Machine
end
